-- ==== Sys2Proof/Word.lean ====
section
/-! DEFINITION. The two widths of data the machine moves (00_scope.md R7, R9): every value is unsigned. -/

namespace Sys2Proof

/-- "Word: a 32-bit unsigned integer" (R9, R16). -/
abbrev Word := BitVec 32

/-- One byte of the message or of the block buffer (R9, R25). -/
abbrev Byte := BitVec 8

end Sys2Proof
end

