-- ==== Sys2Proof/Config.lean ====
section
/-! DEFINITION. What is fixed for every instance of the core: the parameters of 00_scope.md R7.
The spec leaves no value to a draw (R15, 93_implementation_defined.md), so there is no free value here; the two
open parameters PLATFORM_MAP and PLATFORM_IRQ belong to the platform and the core alone does not need them (R59, R304).
The tables K and S and the initial constants stand in Machine/Tables.lean. -/

namespace Sys2Proof.Config

/-- The number of bytes at which the length field no longer holds the bit length (R7, R103). -/
def messageLimit : Nat := 2 ^ 61

/-- The largest value of `LEN`, `2^61 - 1` (R27). -/
def maxLen : BitVec 61 := 0x1FFFFFFFFFFFFFFF#61

end Sys2Proof.Config
end

