-- ==== Sys2Proof/Machine/Tables.lean ====
section
/-! DEFINITION. The constants of the core: the initial values (10_state.md R22), the shift table S and the round-constant
table K (43_compression_core.md R139, R140). They are read-only and no state (R14, R35).
The values of K and the layout of S carry the spec's note "from general knowledge, not in source"; their ground is the five
known vectors of 95_test_vectors.md section 1 (R140: "its ground is the §8 vectors and not a sentence of the source"; log
entry 8). -/

namespace Sys2Proof.Machine

/-- `IV[0]`, the initial value of `A` (R22). -/
def ivA : Word := 0x67452301#32
/-- `IV[1]`, the initial value of `B` (R22). -/
def ivB : Word := 0xEFCDAB89#32
/-- `IV[2]`, the initial value of `C` (R22). -/
def ivC : Word := 0x98BADCFE#32
/-- `IV[3]`, the initial value of `D` (R22). -/
def ivD : Word := 0x10325476#32

/-- The four rows of the shift table, one per family (R139). -/
def shiftRows : List (List Nat) :=
  [[7, 12, 17, 22], [5, 9, 14, 20], [4, 11, 16, 23], [6, 10, 15, 21]]

/-- `S[i] = SROW[i[5:4]][i[1:0]]`, `0 <= i <= 63` (R76, R139); 0 past the table (log entry 16, DESIGN CHOICE). -/
def shiftAmount (i : Nat) : Nat := (shiftRows.getD (i / 16) []).getD (i % 4) 0

/-- `K[0..15]` (R140). -/
def roundConstants0 : List Word :=
  [0xD76AA478#32, 0xE8C7B756#32, 0x242070DB#32, 0xC1BDCEEE#32,
   0xF57C0FAF#32, 0x4787C62A#32, 0xA8304613#32, 0xFD469501#32,
   0x698098D8#32, 0x8B44F7AF#32, 0xFFFF5BB1#32, 0x895CD7BE#32,
   0x6B901122#32, 0xFD987193#32, 0xA679438E#32, 0x49B40821#32]

/-- `K[16..31]` (R140). -/
def roundConstants1 : List Word :=
  [0xF61E2562#32, 0xC040B340#32, 0x265E5A51#32, 0xE9B6C7AA#32,
   0xD62F105D#32, 0x02441453#32, 0xD8A1E681#32, 0xE7D3FBC8#32,
   0x21E1CDE6#32, 0xC33707D6#32, 0xF4D50D87#32, 0x455A14ED#32,
   0xA9E3E905#32, 0xFCEFA3F8#32, 0x676F02D9#32, 0x8D2A4C8A#32]

/-- `K[32..47]` (R140). -/
def roundConstants2 : List Word :=
  [0xFFFA3942#32, 0x8771F681#32, 0x6D9D6122#32, 0xFDE5380C#32,
   0xA4BEEA44#32, 0x4BDECFA9#32, 0xF6BB4B60#32, 0xBEBFBC70#32,
   0x289B7EC6#32, 0xEAA127FA#32, 0xD4EF3085#32, 0x04881D05#32,
   0xD9D4D039#32, 0xE6DB99E5#32, 0x1FA27CF8#32, 0xC4AC5665#32]

/-- `K[48..63]` (R140). -/
def roundConstants3 : List Word :=
  [0xF4292244#32, 0x432AFF97#32, 0xAB9423A7#32, 0xFC93A039#32,
   0x655B59C3#32, 0x8F0CCC92#32, 0xFFEFF47D#32, 0x85845DD1#32,
   0x6FA87E4F#32, 0xFE2CE6E0#32, 0xA3014314#32, 0x4E0811A1#32,
   0xF7537E82#32, 0xBD3AF235#32, 0x2AD7D2BB#32, 0xEB86D391#32]

/-- The round-constant table `K[0..63]` (R140). -/
def roundConstantTable : List Word := roundConstants0 ++ roundConstants1 ++ roundConstants2 ++ roundConstants3

/-- `K[i]`, `0 <= i <= 63` (R35, R140); 0 past the table (log entry 16, DESIGN CHOICE). -/
def roundConstant (i : Nat) : Word := roundConstantTable.getD i 0#32

end Sys2Proof.Machine
end

