-- ==== Sys2Proof/Machine/Arith.lean ====
section
/-! DEFINITION. The arithmetic of the data path and the functions of a round index (43_compression_core.md R130 to R138), and
little-endian serialisation (00_scope.md R10). -/

namespace Sys2Proof.Machine

/-- `add32`, addition modulo 2^32 (R130). -/
def add32 (x y : Word) : Word := x + y

/-- `rotl32`, "`(x << n) | (x >> (32 - n))` with `n` in `1..31`" (R131). Outside `1..31` nothing rests on it: every `S[i]`
is in 4..23 (log entry 7). -/
def rotl32 (x : Word) (n : Nat) : Word := (x <<< n) ||| (x >>> (32 - n))

/-- `F0(b, c, d) = (b & c) | (~b & d)`, rounds 0 to 15 (R133). -/
def f0 (b c d : Word) : Word := (b &&& c) ||| (~~~b &&& d)

/-- `F1(b, c, d) = (b & d) | (c & ~d)`, rounds 16 to 31 (R134). -/
def f1 (b c d : Word) : Word := (b &&& d) ||| (c &&& ~~~d)

/-- `F2(b, c, d) = b ^ c ^ d`, rounds 32 to 47 (R135). -/
def f2 (b c d : Word) : Word := b ^^^ c ^^^ d

/-- `F3(b, c, d) = c ^ (b | ~d)`, rounds 48 to 63 (R136). -/
def f3 (b c d : Word) : Word := c ^^^ (b ||| ~~~d)

/-- `NL(i, b, c, d)`, chosen by the family of `i`, `0 <= i <= 63` (R137); past 63 the last family's (log entry 16,
DESIGN CHOICE). -/
def nonlinear (i : Nat) : Word → Word → Word → Word :=
  if i ≤ 15 then f0 else if i ≤ 31 then f1 else if i ≤ 47 then f2 else f3

/-- `G(i)`, the message-word index, `0 <= i <= 63` (R77, R138); past 63 the last family's (log entry 16, DESIGN CHOICE). -/
def wordIndex (i : Nat) : Fin 16 :=
  if i ≤ 15 then Fin.ofNat 16 i
  else if i ≤ 31 then Fin.ofNat 16 (5 * i + 1)
  else if i ≤ 47 then Fin.ofNat 16 (3 * i + 5)
  else Fin.ofNat 16 (7 * i)

/-- `LE32(w)`, four bytes, least significant first (R10). -/
def le32 (w : Word) : List Byte :=
  [w.extractLsb' 0 8, w.extractLsb' 8 8, w.extractLsb' 16 8, w.extractLsb' 24 8]

/-- Byte `k = 0..7` of a 64-bit number, `v[8k+7:8k]` (R10, R113); 0 for a greater `k` (log entry 16, DESIGN CHOICE). -/
def byteOf64 (v : BitVec 64) (k : Nat) : Byte := v.extractLsb' (8 * k) 8

/-- `LE64(v)`, eight bytes, least significant first (R10). -/
def le64 (v : BitVec 64) : List Byte := (List.range 8).map (byteOf64 v)

/-- The number whose byte `n`, in bits `8n+7:8n`, is the `n`-th byte of the sequence (R152, R153: byte lane `n`). -/
def packLE (bs : List Byte) : Nat := bs.foldr (fun b acc => b.toNat + 256 * acc) 0

end Sys2Proof.Machine
end

