-- ==== Sys2Proof/Machine/State.lean ====
section
/-! DEFINITION. The whole state of one core (10_state.md R20), the pins of the coming steps (R38, log entry 1), and the
reasons a step can stop. Plain data only. -/

namespace Sys2Proof.Machine

/-- Four 32-bit registers in the order `a, b, c, d`: the chaining registers `H[0..3] = A, B, C, D` (R21) and the working
registers `W[0..3] = a, b, c, d` (R23). -/
structure Quad where
  a : Word
  b : Word
  c : Word
  d : Word
  deriving DecidableEq, Repr

/-- The phases of a transaction, register `PHASE` (R29). -/
inductive Phase where
  /-- 0: after reset; no message open. -/
  | idle
  /-- 1: a message is open. -/
  | absorb
  /-- 2: the Preprocessor emits padding bytes. -/
  | pad
  /-- 3: the block buffer is full. -/
  | load
  /-- 4: the Compression Core executes round `RND`. -/
  | round
  /-- 5: feed-forward pending. -/
  | addbk
  /-- 6: the digest is valid. -/
  | done
  /-- 7: the message overflowed the length field. -/
  | error
  deriving DecidableEq, Repr

/-- The Preprocessor's padding state, register `PADST` (R30). -/
inductive PadSt where
  /-- 0, `NONE`: no `FINAL` yet in this transaction. -/
  | none
  /-- 1, `P80`: the byte `0x80` is still to be emitted. -/
  | p80
  /-- 2, `PZ`: zero bytes are being emitted. -/
  | pz
  /-- 3, `PL`: the length bytes are being, or have all been, emitted. -/
  | pl
  deriving DecidableEq, Repr

/-- The three inputs of one step (R38). -/
structure Pins where
  /-- `RST`, reset. -/
  rst : Bool
  /-- `CV`, command valid. -/
  cv : Bool
  /-- `CMD[9:0]`. -/
  cmd : BitVec 10
  deriving DecidableEq, Repr

/-- The host presents nothing: `RST = 0`, `CV = 0`. -/
def Pins.quiet : Pins := ⟨false, false, 0#10⟩

/-- `BUF[0..63]` (R25) as (index, byte) pairs: indices strictly rising, no byte equal to the reset contents 0 (R20). -/
abbrev Memory := List Host.Cell

/-- The state of one core (R20), and the pins of the coming steps. -/
structure State where
  /-- `A, B, C, D` (R21). -/
  h : Quad
  /-- `a, b, c, d` (R23). -/
  w : Quad
  /-- `BUF[0..63]` (R25). -/
  buf : Memory
  /-- `FILL`, the number of bytes of the current block in `BUF` (R26). -/
  fill : BitVec 7
  /-- `LEN`, the number of message bytes since the last `INIT` (R27). -/
  len : BitVec 61
  /-- `PHASE` (R29). -/
  phase : Phase
  /-- `PADST` (R30). -/
  padst : PadSt
  /-- `RND`, the round index (R31). -/
  rnd : BitVec 6
  /-- `OVF`, sticky (R32). -/
  ovf : Bool
  /-- `PERR`, sticky (R32). -/
  perr : Bool
  /-- THE MODEL'S OWN FIELD: the pins of the coming steps, the next step's first; past the end the host presents nothing
  (log entry 1, DESIGN CHOICE). The core neither latches nor queues a command (R333): each step takes one entry off,
  accepted or not. -/
  inputs : List Pins
  deriving DecidableEq, Repr

/-- The initial constants in the order `A, B, C, D` (R22). -/
def Quad.iv : Quad := ⟨ivA, ivB, ivC, ivD⟩

/-- Four registers at zero (R330). -/
def Quad.zero : Quad := ⟨0#32, 0#32, 0#32, 0#32⟩

/-- The reset state (R20, R330); the model's own list of pins is empty (log entry 1). -/
def State.reset : State where
  h := Quad.iv
  w := Quad.zero
  buf := []
  fill := 0#7
  len := 0#61
  phase := .idle
  padst := .none
  rnd := 0#6
  ovf := false
  perr := false
  inputs := []

/-- Why a step stops. Each is a state to which the spec gives no step but `RESET` (R78, R40, 92 D28, 93 U1 and U6: "stuck").
All are SAFE: the model stops where the spec defines nothing, and no state reached from reset is one of them (log entry 5). -/
inductive Fault where
  /-- `FILL > 64` (R78). Raised by the step selection; safe. -/
  | fillAbove64
  /-- `PHASE` in LOAD, ROUND, ADDBK with `FILL != 64`: a partial block (R56, R78, U1). Raised by the step selection and by
  `LOAD`, the rounds and `ADDBK`; safe. -/
  | partialBlock
  /-- `PHASE = PAD` with `PADST = NONE`, the selector no micro-operation has (R78). Raised by the step selection; safe. -/
  | padWithoutFinal
  /-- A selector whose phase has `RDY = 1`: "select no micro-operation" (R75). Raised by the step selection for a selector the
  decoder rejects so; no busy state has such a selector; safe. -/
  | noMicroOperation
  /-- `PHASE = ADDBK` with `PADST = P80` (R78, R145: "cannot occur here"). Raised by the step selection and `ADDBK`; safe. -/
  | addbkBeforePad
  /-- `FILL = 64` outside LOAD, ROUND, ADDBK (R40 item 1). Raised by the step selection; safe. -/
  | fullBlockWaiting
  /-- `RND != 0` outside ROUND (R40 item 2, U6). Raised by the step selection; safe. -/
  | roundIndexSet
  /-- `PADST` not that of `PHASE` IDLE, ABSORB, ERROR or DONE (R40 item 3). Raised by the step selection; safe. -/
  | padstOfPhase
  /-- `PHASE = DONE` with `FILL != 0` (R40 item 3). Raised by the step selection; safe. -/
  | doneWithBytes
  /-- The length field outside positions 56 to 63: `PHASE = PAD`, `PADST = PL` (R40 item 4); `PADLEN`'s operand
  `k = FILL - 56` outside 0 to 7 (R77, R112). Raised by the step selection and by `PADLEN`; safe. -/
  | lengthPosition
  /-- `PHASE = ABSORB` with `FILL != LEN mod 64` (R40 item 5). Raised by the step selection; safe. -/
  | fillNotLength
  /-- `OVF` set outside ERROR or clear in ERROR (R40 item 7). Raised by the step selection; safe. -/
  | overflowFlag
  /-- `PHASE = ERROR` with `LEN != 2^61 - 1` (R40 item 7). Raised by the step selection; safe. -/
  | errorLength
  /-- A byte of `BUF` outside 0 to 63 (R50, R51): `PUSH` with `FILL > 63`, outside its domain (R104). Raised by `PUSH`; safe. -/
  | bufferIndex
  deriving DecidableEq, Repr

/-- Why an operation has no meaning. No arm of `exec` uses it: every row of the table has its meaning. -/
inductive Refusal where
  /-- Raised by an arm of `exec` whose instruction has no meaning yet; safe. -/
  | notModelled (mnemonic : String)
  deriving DecidableEq, Repr

/-- What an operation answers. -/
abbrev Result := Host.Outcome State Fault Refusal

end Sys2Proof.Machine
end

