-- ==== Sys2Proof/Machine/Ops.lean ====
section
/-! DEFINITION. The named operations over the buffer and the registers: the byte access of `BUF` (20_memory.md), the encodings
of the sequencer registers (10_state.md R29, R30), `PUSH` (41_preprocessor.md R104), raising an exception and the way out of it
(60_exceptions.md R301, R302, R307), `RESET` (70_reset_and_hazards.md R330), and the pins (R38). -/

namespace Sys2Proof.Machine

/-- `BUF[i]`; a byte not listed is the reset contents 0 (R20). -/
def Memory.read : Memory → Nat → Byte
  | [], _ => 0#8
  | (j, u) :: rest, i => if i = j then u else Memory.read rest i

/-- `MemWrite(i, 1, v)`: sets `BUF[i] <- v` "and changes no other byte" (R51), keeping the canonical form. -/
def Memory.write : Memory → Nat → Byte → Memory
  | [], i, v => if v = 0#8 then [] else [(i, v)]
  | (j, u) :: rest, i, v =>
    if i < j then (if v = 0#8 then (j, u) :: rest else (i, v) :: (j, u) :: rest)
    else if i = j then (if v = 0#8 then rest else (i, v) :: rest)
    else (j, u) :: Memory.write rest i v

/-- The canonical form from index `lo` on: indices strictly rising and at most 63 (R50), no listed byte 0. -/
def Memory.wfFrom (lo : Nat) : Memory → Bool
  | [] => true
  | (j, u) :: rest => decide (lo ≤ j) && decide (j ≤ 63) && (u != 0#8) && Memory.wfFrom (j + 1) rest

/-- The buffer is in its canonical form. -/
def Memory.wf (m : Memory) : Bool := Memory.wfFrom 0 m

/-- The code of a phase in `PHASE` and in `STATUS[6:4]` (R29). -/
def Phase.code : Phase → BitVec 3
  | .idle => 0#3
  | .absorb => 1#3
  | .pad => 2#3
  | .load => 3#3
  | .round => 4#3
  | .addbk => 5#3
  | .done => 6#3
  | .error => 7#3

/-- The phase of a code: "All eight values are used" (R29). -/
def Phase.ofCode (c : BitVec 3) : Phase :=
  match c.toNat with
  | 0 => .idle
  | 1 => .absorb
  | 2 => .pad
  | 3 => .load
  | 4 => .round
  | 5 => .addbk
  | 6 => .done
  | _ => .error

/-- The code of a padding state in `PADST` (R30). -/
def PadSt.code : PadSt → BitVec 2
  | .none => 0#2
  | .p80 => 1#2
  | .pz => 2#2
  | .pl => 3#2

/-- The padding state of a code (R30). -/
def PadSt.ofCode (c : BitVec 2) : PadSt :=
  match c.toNat with
  | 0 => .none
  | 1 => .p80
  | 2 => .pz
  | _ => .pl

/-- LOAD, ROUND, ADDBK: the phases in which the Compression Core works on the block in `BUF` (R40 item 1). -/
def Phase.compressing : Phase → Bool
  | .load | .round | .addbk => true
  | .idle | .absorb | .pad | .done | .error => false

/-- The state `PUSH(v, p)` leaves (R104): `BUF[FILL] <- v`, `FILL <- FILL + 1`, and `PHASE` is LOAD when the block is now
complete (R123), else `p`. -/
def pushed (v : Byte) (p : Phase) (s : State) : State :=
  { s with
    buf := Memory.write s.buf s.fill.toNat v
    fill := s.fill + 1#7
    phase := if s.fill + 1#7 = 64#7 then .load else p }

/-- `PUSH(v, p)`, which "may be used only while `FILL <= 63`" (R104). -/
def push (v : Byte) (p : Phase) (s : State) : Result :=
  if s.fill.toNat ≤ 63 then .next (pushed v p s) else .fault .bufferIndex

/-- The complete list of exceptions (R300). -/
inductive Exception where
  | overflow
  | protocol
  deriving DecidableEq, Repr

/-- Taking an exception, its whole effect (R301, R302): nothing is saved, there is no vector, and every other register is
unchanged (R306). -/
def raise (e : Exception) (s : State) : State :=
  match e with
  | .overflow => { s with ovf := true, phase := .error }
  | .protocol => { s with perr := true }

/-- The way out of an exception, by `INIT` (R106, R307): both sticky flags cleared and a new message open. -/
def opened (s : State) : State :=
  { s with
    h := Quad.iv
    len := 0#61
    fill := 0#7
    padst := .none
    rnd := 0#6
    ovf := false
    perr := false
    phase := .absorb }

/-- The pins of this step (R38). -/
def State.pins (s : State) : Pins := s.inputs.headD Pins.quiet

/-- The state with this step's pins taken off the list. -/
def State.tick (s : State) : State := { s with inputs := s.inputs.tail }

/-- `RESET`: every register takes its reset value, whatever the state (R330). The pins of the steps after it are the host's and
stay. -/
def resetCore (s : State) : State := { State.reset with inputs := s.inputs }

end Sys2Proof.Machine
end

