-- ==== Sys2Proof/Machine/Operands.lean ====
section
/-! DEFINITION. The operands of the operations (30_encoding.md R77): the word view `X` of `BUF` (10_state.md R25, 20_memory.md
R52), the length bytes (41_preprocessor.md R113). The byte of `DATA` is pulled out by the decoder (R73); `g`, `K[i]`, `S[i]` are
in Machine/Arith.lean and Machine/Tables.lean. -/

namespace Sys2Proof.Machine

/-- `X[g] = MemRead(4g, 4) = {BUF[4g+3], BUF[4g+2], BUF[4g+1], BUF[4g]}` (R25, R52): aligned by construction (R55). -/
def blockWord (m : Memory) (g : Fin 16) : Word :=
  Memory.read m (4 * g.val + 3) ++ Memory.read m (4 * g.val + 2) ++ Memory.read m (4 * g.val + 1) ++ Memory.read m (4 * g.val)

/-- `BITLEN = {LEN, 0b000}`, the message length in bits, a wire (R27). -/
def bitLength (s : State) : BitVec 64 := s.len ++ 0#3

/-- `LENBYTE(k) = BITLEN[8k+7 : 8k]` for `k = 0..7` (R113). -/
def lengthByte (s : State) (k : Nat) : Byte := byteOf64 (bitLength s) k

/-- The operand of `PADLEN`, `k = FILL - 56`, valid because `56 <= FILL <= 63` there (R77, R112); outside that range the spec
gives no operand. -/
def lengthIndex (s : State) : Option Nat :=
  if 56 ≤ s.fill.toNat ∧ s.fill.toNat ≤ 63 then some (s.fill.toNat - 56) else none

end Sys2Proof.Machine
end

