-- ==== Sys2Proof/Machine/Compression.lean ====
section
/-! DEFINITION. The Compression Core: the round as a function of four registers and one message word (43_compression_core.md
R141), the template of the round micro-operations (R144) and the feed-forward `ADDBK` (R145). -/

namespace Sys2Proof.Machine

/-- The round's result `(d, bn, b, c)` in the order `(a, b, c, d)`, all four from the old values (R141): `temp = a + f + k + x`,
`bn = b + rotl32(temp, n)`. -/
def mix (f : Word → Word → Word → Word) (k : Word) (n : Nat) (w : Quad) (x : Word) : Quad :=
  let temp := add32 (add32 (add32 w.a (f w.b w.c w.d)) k) x
  let bn := add32 w.b (rotl32 temp n)
  ⟨w.d, bn, w.b, w.c⟩

/-- The Compression Core acts on a whole block only: with `FILL != 64` there is no step (R56, R78). -/
def onWholeBlock (s t : State) : Result := if s.fill = 64#7 then .next t else .fault .partialBlock

/-- A round before the last: it reads `X[g]` and writes `a, b, c, d` and `RND` (R141, R144). -/
def roundOp (f : Word → Word → Word → Word) (g : Fin 16) (k : Word) (n : Nat) (next : BitVec 6) (s : State) : Result :=
  onWholeBlock s { s with w := mix f k n s.w (blockWord s.buf g), rnd := next }

/-- The last round: `PHASE <- ADDBK; RND <- 0` (R144, R263). -/
def lastRoundOp (f : Word → Word → Word → Word) (g : Fin 16) (k : Word) (n : Nat) (s : State) : Result :=
  onWholeBlock s { s with w := mix f k n s.w (blockWord s.buf g), phase := .addbk, rnd := 0#6 }

/-- `(A + a, B + b, C + c, D + d)`, each modulo 2^32 (R142, R145). -/
def Quad.add (h w : Quad) : Quad := ⟨add32 h.a w.a, add32 h.b w.b, add32 h.c w.c, add32 h.d w.d⟩

/-- The state `ADDBK` leaves when it goes on in phase `p`: `A, B, C, D` added to, `FILL <- 0` (R145). -/
def addedBack (p : Phase) (s : State) : State := { s with h := s.h.add s.w, fill := 0#7, phase := p }

/-- `ADDBK` (R145): `PADST` names the phase to go back to; `PADST = P80` "cannot occur here" and has no step (R78). -/
def execAddbk (s : State) : Result :=
  match s.padst with
  | .none => onWholeBlock s (addedBack .absorb s)
  | .pz => onWholeBlock s (addedBack .pad s)
  | .pl => onWholeBlock s (addedBack .done s)
  | .p80 => .fault .addbkBeforePad

end Sys2Proof.Machine
end

