-- ==== Sys2Proof/Machine/Preprocessor.lean ====
section
/-! DEFINITION. The Preprocessor's operations (41_preprocessor.md sections 3 and 4): the four commands of the host and the four
padding micro-operations. -/

namespace Sys2Proof.Machine

/-- `NOP` (R105): no state changes, in any phase. -/
def execNop (s : State) : Result := .next s

/-- `INIT` (R106): open a new message; `BUF` and `a, b, c, d` keep their values. -/
def execInit (s : State) : Result := .next (opened s)

/-- `DATA b` (R107): the phase test comes first (R305), then the length test, both before anything is written. -/
def execData (b : Byte) (s : State) : Result :=
  if s.phase ≠ .absorb then .next (raise .protocol s)
  else if s.len = Config.maxLen then .next (raise .overflow s)
  else push b .absorb { s with len := s.len + 1#61 }

/-- `FINAL` (R108): close the message and start the padding. -/
def execFinal (s : State) : Result :=
  if s.phase ≠ .absorb then .next (raise .protocol s)
  else .next { s with padst := .p80, phase := .pad }

/-- `PAD80` (R109): emit the padding bit as the byte `0x80`. -/
def execPad80 (s : State) : Result := push 0x80#8 .pad { s with padst := .pz }

/-- `PADZ` (R110): emit one zero byte. -/
def execPadz (s : State) : Result := push 0x00#8 .pad s

/-- `PADSW` (R111): switch from the zeros to the length field; nothing is pushed. -/
def execPadsw (s : State) : Result := .next { s with padst := .pl }

/-- `PADLEN` (R112): emit byte `k = FILL - 56` of the length field. -/
def execPadlen (s : State) : Result :=
  match lengthIndex s with
  | some k => push (lengthByte s k) .pad s
  | none => .fault .lengthPosition

end Sys2Proof.Machine
end

