-- ==== Sys2Proof/Machine/Rounds.lean ====
section
/-! DEFINITION. The 64 round micro-operations with their constants bound, as 44_round_ops.md binds them: round `i` is rule
R(200+i). Each is the shared template `roundOp` (43_compression_core.md R141, R144) over its nonlinear function, its word
index `g`, its round constant `K[i]`, its rotation amount `S[i]` and the next value of `RND`. The constants are the spec's
per-round text, not read from Machine/Tables.lean, so that each row can be held beside its rule. -/

namespace Sys2Proof.Machine

/-- `RND00`, R200. -/
def execRnd00 (s : State) : Result := roundOp f0 0 0xD76AA478#32 7 1#6 s

/-- `RND01`, R201. -/
def execRnd01 (s : State) : Result := roundOp f0 1 0xE8C7B756#32 12 2#6 s

/-- `RND02`, R202. -/
def execRnd02 (s : State) : Result := roundOp f0 2 0x242070DB#32 17 3#6 s

/-- `RND03`, R203. -/
def execRnd03 (s : State) : Result := roundOp f0 3 0xC1BDCEEE#32 22 4#6 s

/-- `RND04`, R204. -/
def execRnd04 (s : State) : Result := roundOp f0 4 0xF57C0FAF#32 7 5#6 s

/-- `RND05`, R205. -/
def execRnd05 (s : State) : Result := roundOp f0 5 0x4787C62A#32 12 6#6 s

/-- `RND06`, R206. -/
def execRnd06 (s : State) : Result := roundOp f0 6 0xA8304613#32 17 7#6 s

/-- `RND07`, R207. -/
def execRnd07 (s : State) : Result := roundOp f0 7 0xFD469501#32 22 8#6 s

/-- `RND08`, R208. -/
def execRnd08 (s : State) : Result := roundOp f0 8 0x698098D8#32 7 9#6 s

/-- `RND09`, R209. -/
def execRnd09 (s : State) : Result := roundOp f0 9 0x8B44F7AF#32 12 10#6 s

/-- `RND10`, R210. -/
def execRnd10 (s : State) : Result := roundOp f0 10 0xFFFF5BB1#32 17 11#6 s

/-- `RND11`, R211. -/
def execRnd11 (s : State) : Result := roundOp f0 11 0x895CD7BE#32 22 12#6 s

/-- `RND12`, R212. -/
def execRnd12 (s : State) : Result := roundOp f0 12 0x6B901122#32 7 13#6 s

/-- `RND13`, R213. -/
def execRnd13 (s : State) : Result := roundOp f0 13 0xFD987193#32 12 14#6 s

/-- `RND14`, R214. -/
def execRnd14 (s : State) : Result := roundOp f0 14 0xA679438E#32 17 15#6 s

/-- `RND15`, R215. -/
def execRnd15 (s : State) : Result := roundOp f0 15 0x49B40821#32 22 16#6 s

/-- `RND16`, R216. -/
def execRnd16 (s : State) : Result := roundOp f1 1 0xF61E2562#32 5 17#6 s

/-- `RND17`, R217. -/
def execRnd17 (s : State) : Result := roundOp f1 6 0xC040B340#32 9 18#6 s

/-- `RND18`, R218. -/
def execRnd18 (s : State) : Result := roundOp f1 11 0x265E5A51#32 14 19#6 s

/-- `RND19`, R219. -/
def execRnd19 (s : State) : Result := roundOp f1 0 0xE9B6C7AA#32 20 20#6 s

/-- `RND20`, R220. -/
def execRnd20 (s : State) : Result := roundOp f1 5 0xD62F105D#32 5 21#6 s

/-- `RND21`, R221. -/
def execRnd21 (s : State) : Result := roundOp f1 10 0x02441453#32 9 22#6 s

/-- `RND22`, R222. -/
def execRnd22 (s : State) : Result := roundOp f1 15 0xD8A1E681#32 14 23#6 s

/-- `RND23`, R223. -/
def execRnd23 (s : State) : Result := roundOp f1 4 0xE7D3FBC8#32 20 24#6 s

/-- `RND24`, R224. -/
def execRnd24 (s : State) : Result := roundOp f1 9 0x21E1CDE6#32 5 25#6 s

/-- `RND25`, R225. -/
def execRnd25 (s : State) : Result := roundOp f1 14 0xC33707D6#32 9 26#6 s

/-- `RND26`, R226. -/
def execRnd26 (s : State) : Result := roundOp f1 3 0xF4D50D87#32 14 27#6 s

/-- `RND27`, R227. -/
def execRnd27 (s : State) : Result := roundOp f1 8 0x455A14ED#32 20 28#6 s

/-- `RND28`, R228. -/
def execRnd28 (s : State) : Result := roundOp f1 13 0xA9E3E905#32 5 29#6 s

/-- `RND29`, R229. -/
def execRnd29 (s : State) : Result := roundOp f1 2 0xFCEFA3F8#32 9 30#6 s

/-- `RND30`, R230. -/
def execRnd30 (s : State) : Result := roundOp f1 7 0x676F02D9#32 14 31#6 s

/-- `RND31`, R231. -/
def execRnd31 (s : State) : Result := roundOp f1 12 0x8D2A4C8A#32 20 32#6 s

/-- `RND32`, R232. -/
def execRnd32 (s : State) : Result := roundOp f2 5 0xFFFA3942#32 4 33#6 s

/-- `RND33`, R233. -/
def execRnd33 (s : State) : Result := roundOp f2 8 0x8771F681#32 11 34#6 s

/-- `RND34`, R234. -/
def execRnd34 (s : State) : Result := roundOp f2 11 0x6D9D6122#32 16 35#6 s

/-- `RND35`, R235. -/
def execRnd35 (s : State) : Result := roundOp f2 14 0xFDE5380C#32 23 36#6 s

/-- `RND36`, R236. -/
def execRnd36 (s : State) : Result := roundOp f2 1 0xA4BEEA44#32 4 37#6 s

/-- `RND37`, R237. -/
def execRnd37 (s : State) : Result := roundOp f2 4 0x4BDECFA9#32 11 38#6 s

/-- `RND38`, R238. -/
def execRnd38 (s : State) : Result := roundOp f2 7 0xF6BB4B60#32 16 39#6 s

/-- `RND39`, R239. -/
def execRnd39 (s : State) : Result := roundOp f2 10 0xBEBFBC70#32 23 40#6 s

/-- `RND40`, R240. -/
def execRnd40 (s : State) : Result := roundOp f2 13 0x289B7EC6#32 4 41#6 s

/-- `RND41`, R241. -/
def execRnd41 (s : State) : Result := roundOp f2 0 0xEAA127FA#32 11 42#6 s

/-- `RND42`, R242. -/
def execRnd42 (s : State) : Result := roundOp f2 3 0xD4EF3085#32 16 43#6 s

/-- `RND43`, R243. -/
def execRnd43 (s : State) : Result := roundOp f2 6 0x04881D05#32 23 44#6 s

/-- `RND44`, R244. -/
def execRnd44 (s : State) : Result := roundOp f2 9 0xD9D4D039#32 4 45#6 s

/-- `RND45`, R245. -/
def execRnd45 (s : State) : Result := roundOp f2 12 0xE6DB99E5#32 11 46#6 s

/-- `RND46`, R246. -/
def execRnd46 (s : State) : Result := roundOp f2 15 0x1FA27CF8#32 16 47#6 s

/-- `RND47`, R247. -/
def execRnd47 (s : State) : Result := roundOp f2 2 0xC4AC5665#32 23 48#6 s

/-- `RND48`, R248. -/
def execRnd48 (s : State) : Result := roundOp f3 0 0xF4292244#32 6 49#6 s

/-- `RND49`, R249. -/
def execRnd49 (s : State) : Result := roundOp f3 7 0x432AFF97#32 10 50#6 s

/-- `RND50`, R250. -/
def execRnd50 (s : State) : Result := roundOp f3 14 0xAB9423A7#32 15 51#6 s

/-- `RND51`, R251. -/
def execRnd51 (s : State) : Result := roundOp f3 5 0xFC93A039#32 21 52#6 s

/-- `RND52`, R252. -/
def execRnd52 (s : State) : Result := roundOp f3 12 0x655B59C3#32 6 53#6 s

/-- `RND53`, R253. -/
def execRnd53 (s : State) : Result := roundOp f3 3 0x8F0CCC92#32 10 54#6 s

/-- `RND54`, R254. -/
def execRnd54 (s : State) : Result := roundOp f3 10 0xFFEFF47D#32 15 55#6 s

/-- `RND55`, R255. -/
def execRnd55 (s : State) : Result := roundOp f3 1 0x85845DD1#32 21 56#6 s

/-- `RND56`, R256. -/
def execRnd56 (s : State) : Result := roundOp f3 8 0x6FA87E4F#32 6 57#6 s

/-- `RND57`, R257. -/
def execRnd57 (s : State) : Result := roundOp f3 15 0xFE2CE6E0#32 10 58#6 s

/-- `RND58`, R258. -/
def execRnd58 (s : State) : Result := roundOp f3 6 0xA3014314#32 15 59#6 s

/-- `RND59`, R259. -/
def execRnd59 (s : State) : Result := roundOp f3 13 0x4E0811A1#32 21 60#6 s

/-- `RND60`, R260. -/
def execRnd60 (s : State) : Result := roundOp f3 4 0xF7537E82#32 6 61#6 s

/-- `RND61`, R261. -/
def execRnd61 (s : State) : Result := roundOp f3 11 0xBD3AF235#32 10 62#6 s

/-- `RND62`, R262. -/
def execRnd62 (s : State) : Result := roundOp f3 2 0x2AD7D2BB#32 15 63#6 s

/-- `RND63`, R263. -/
def execRnd63 (s : State) : Result := lastRoundOp f3 9 0xEB86D391#32 21 s

end Sys2Proof.Machine
end

