-- ==== Sys2Proof/Machine/Scheduler.lean ====
section
/-! DEFINITION. The Block Scheduler's one micro-operation (42_block_scheduler.md). Its block-full test is in `pushed` (R123), its
word decode is the view `blockWord` (R122). -/

namespace Sys2Proof.Machine

/-- `LOAD` (R124): "working copies `a, b, c, d` seeded from the current State"; `BUF`, `FILL`, `LEN`, `PADST` untouched. -/
def execLoad (s : State) : Result := onWholeBlock s { s with w := s.h, rnd := 0#6, phase := .round }

end Sys2Proof.Machine
end

