-- ==== Sys2Proof/Syntax.lean ====
section
/-! DEFINITION. The operations of the machine, one constructor per row of opcode_table.json (30_encoding.md R82), and
the lines of the textual form of command streams (R80, R81). -/

namespace Sys2Proof

/-- The 4 commands (format CMD, R71, R72) and the 70 micro-operations (format USEL, R74, R75). Only `DATA` has an operand
(R77); the ignored bits of a word are no operand (R73, R75: "a bit the decoder ignores"). -/
inductive Instr where
  /-- `NOP`, R105. -/
  | nop
  /-- `INIT`, R106. -/
  | init
  /-- `DATA b`, R107. -/
  | data (b : Byte)
  /-- `FINAL`, R108. -/
  | final
  /-- `PAD80`, R109. -/
  | pad80
  /-- `PADZ`, R110. -/
  | padz
  /-- `PADSW`, R111. -/
  | padsw
  /-- `PADLEN`, R112. -/
  | padlen
  /-- `LOAD`, R124. -/
  | load
  /- The rounds, `RNDii` is rule R(200+i). -/
  | rnd00 | rnd01 | rnd02 | rnd03 | rnd04 | rnd05 | rnd06 | rnd07
  | rnd08 | rnd09 | rnd10 | rnd11 | rnd12 | rnd13 | rnd14 | rnd15
  | rnd16 | rnd17 | rnd18 | rnd19 | rnd20 | rnd21 | rnd22 | rnd23
  | rnd24 | rnd25 | rnd26 | rnd27 | rnd28 | rnd29 | rnd30 | rnd31
  | rnd32 | rnd33 | rnd34 | rnd35 | rnd36 | rnd37 | rnd38 | rnd39
  | rnd40 | rnd41 | rnd42 | rnd43 | rnd44 | rnd45 | rnd46 | rnd47
  | rnd48 | rnd49 | rnd50 | rnd51 | rnd52 | rnd53 | rnd54 | rnd55
  | rnd56 | rnd57 | rnd58 | rnd59 | rnd60 | rnd61 | rnd62 | rnd63
  /-- `ADDBK`, R145. -/
  | addbk
  deriving DecidableEq, Repr

/-- The operand of a `DATA` line (R80): `0xHH`, a decimal numeral, or one character in apostrophes. -/
inductive ByteLit where
  | hex (n : Nat)
  | dec (n : Nat)
  | chr (c : Char)
  deriving DecidableEq, Repr

/-- One line of the textual form: the four commands of R80, the pseudo-instructions and directives of R81. -/
inductive Line where
  | nop
  | init
  | data (b : ByteLit)
  | final
  | msg (s : List Char)
  | hash (s : List Char)
  | reset
  | idle (n : Nat)
  deriving DecidableEq, Repr

end Sys2Proof
end

