-- ==== Sys2Proof/WellFormed.lean ====
section
/-! DEFINITION. Which terms of the syntax stand for something the spec has. Every `Instr` does: all four `op` codes are
assigned and all 256 bytes are legal (30_encoding.md R72, R73, R78), and the type of `DATA`'s operand holds nothing else. The
lines of the textual form are checked (R80, R81). -/

namespace Sys2Proof

/-- R72, R73, R78: no operation has an illegal operand. -/
def Instr.wf (_ : Instr) : Bool := true

/-- The printable characters of ASCII, for `'c'` "of one printable character" (R80). -/
def printableAscii (c : Char) : Bool := 0x20 ≤ c.toNat && c.toNat ≤ 0x7E

/-- The characters of ASCII, for `MSG "s"` (R81; 91_not_in_source.md N17: "defined for ASCII only"). -/
def ascii (c : Char) : Bool := c.toNat ≤ 0x7F

/-- `0xHH` has two digits, a decimal is in `0..255`, a character is printable (R80). -/
def ByteLit.wf : ByteLit → Bool
  | .hex n => n < 256
  | .dec n => n < 256
  | .chr c => printableAscii c

/-- A line is well formed when its operand is (R80, R81). -/
def Line.wf : Line → Bool
  | .data b => b.wf
  | .msg s => s.all ascii
  | .hash s => s.all ascii
  | .nop | .init | .final | .reset | .idle _ => true

end Sys2Proof
end

