-- ==== Sys2Proof/Decode.lean ====
section
/-! DEFINITION. Decoding and encoding (30_encoding.md sections 2 and 3).

One 12-bit instruction word serves both formats: a selector `USEL` as it is, a command `CMD` with two zero bits above it.
A selector that selects a micro-operation has PHASE 010 to 101, so it lies in 0x400 to 0xBFF, and a command lies in 0x000 to
0x3FF: the two formats never share a word (log entry 3, DESIGN CHOICE). The encoder stands after the decoder. -/

namespace Sys2Proof

/-- Why a word selects nothing. -/
inductive Reject where
  /-- PHASE = 010 with PADST = 00: the one busy selector that R75 does not decode (R78). -/
  | padWithoutFinal
  /-- PHASE 110 or 111 as a selector: "select no micro-operation" (R75). -/
  | readyPhase
  deriving DecidableEq, Repr

/-- Rounds 0 to 15, family 0 (R76). -/
def roundFamily0 : List Instr :=
  [.rnd00, .rnd01, .rnd02, .rnd03, .rnd04, .rnd05, .rnd06, .rnd07,
   .rnd08, .rnd09, .rnd10, .rnd11, .rnd12, .rnd13, .rnd14, .rnd15]

/-- Rounds 16 to 31, family 1 (R76). -/
def roundFamily1 : List Instr :=
  [.rnd16, .rnd17, .rnd18, .rnd19, .rnd20, .rnd21, .rnd22, .rnd23,
   .rnd24, .rnd25, .rnd26, .rnd27, .rnd28, .rnd29, .rnd30, .rnd31]

/-- Rounds 32 to 47, family 2 (R76). -/
def roundFamily2 : List Instr :=
  [.rnd32, .rnd33, .rnd34, .rnd35, .rnd36, .rnd37, .rnd38, .rnd39,
   .rnd40, .rnd41, .rnd42, .rnd43, .rnd44, .rnd45, .rnd46, .rnd47]

/-- Rounds 48 to 63, family 3 (R76). -/
def roundFamily3 : List Instr :=
  [.rnd48, .rnd49, .rnd50, .rnd51, .rnd52, .rnd53, .rnd54, .rnd55,
   .rnd56, .rnd57, .rnd58, .rnd59, .rnd60, .rnd61, .rnd62, .rnd63]

/-- The 64 round micro-operations in the order of `RND` (R75). -/
def roundTable : List Instr := roundFamily0 ++ roundFamily1 ++ roundFamily2 ++ roundFamily3

/-- The micro-operation of round `i` (R75, row `RND00 ... RND63`). -/
def roundInstr (i : BitVec 6) : Instr := roundTable.getD i.toNat .rnd00

/-- Format CMD: `op = CMD[9:8]`, `byte = CMD[7:0]` (R71, R72). Total: "no command word is illegal". -/
def decodeCmd (w : BitVec 10) : Instr :=
  match (w.extractLsb' 8 2).toNat with
  | 0 => .nop
  | 1 => .init
  | 2 => .data (w.extractLsb' 0 8)
  | _ => .final

/-- Format USEL: PHASE in 11:9, PADST in 8:7, Z in 6, RND in 5:0 (R74, R75). -/
def decodeUsel (w : BitVec 12) : Except Reject Instr :=
  match (w.extractLsb' 9 3).toNat with
  | 2 =>
    match (w.extractLsb' 7 2).toNat with
    | 0 => .error .padWithoutFinal
    | 1 => .ok .pad80
    | 2 => if w.getLsbD 6 then .ok .padsw else .ok .padz
    | _ => .ok .padlen
  | 3 => .ok .load
  | 4 => .ok (roundInstr (w.extractLsb' 0 6))
  | 5 => .ok .addbk
  | _ => .error .readyPhase

/-- The instruction of a 12-bit word: a command below 0x400, else a selector. -/
def decode (w : BitVec 12) : Except Reject Instr :=
  if w.toNat < 0x400 then .ok (decodeCmd (w.setWidth 10)) else decodeUsel w

/-- The instruction of `nbits` bits read as the number `w` (bit 0 least significant); bits above `nbits` are zero. -/
def decodeTableWord (nbits w : Nat) : Option Instr :=
  let v := w % 2 ^ nbits
  if v < 2 ^ 12 then (decode (BitVec.ofNat 12 v)).toOption else none

/-- The `mask` column of R72 (with the two bits above a command held at 0) and of R75. -/
def Instr.mask : Instr → BitVec 12
  | .nop | .init | .data _ | .final => 0xF00#12
  | .pad80 | .padlen => 0xF80#12
  | .padz | .padsw => 0xFC0#12
  | .load | .addbk => 0xE00#12
  | .rnd00 | .rnd01 | .rnd02 | .rnd03 | .rnd04 | .rnd05 | .rnd06 | .rnd07
  | .rnd08 | .rnd09 | .rnd10 | .rnd11 | .rnd12 | .rnd13 | .rnd14 | .rnd15
  | .rnd16 | .rnd17 | .rnd18 | .rnd19 | .rnd20 | .rnd21 | .rnd22 | .rnd23
  | .rnd24 | .rnd25 | .rnd26 | .rnd27 | .rnd28 | .rnd29 | .rnd30 | .rnd31
  | .rnd32 | .rnd33 | .rnd34 | .rnd35 | .rnd36 | .rnd37 | .rnd38 | .rnd39
  | .rnd40 | .rnd41 | .rnd42 | .rnd43 | .rnd44 | .rnd45 | .rnd46 | .rnd47
  | .rnd48 | .rnd49 | .rnd50 | .rnd51 | .rnd52 | .rnd53 | .rnd54 | .rnd55
  | .rnd56 | .rnd57 | .rnd58 | .rnd59 | .rnd60 | .rnd61 | .rnd62 | .rnd63 => 0xE3F#12

/-- The `match` column of R72 and R75. -/
def Instr.pattern : Instr → BitVec 12
  | .nop => 0x000#12
  | .init => 0x100#12
  | .data _ => 0x200#12
  | .final => 0x300#12
  | .pad80 => 0x480#12
  | .padz => 0x500#12
  | .padsw => 0x540#12
  | .padlen => 0x580#12
  | .load => 0x600#12
  | .rnd00 => 0x800#12
  | .rnd01 => 0x801#12
  | .rnd02 => 0x802#12
  | .rnd03 => 0x803#12
  | .rnd04 => 0x804#12
  | .rnd05 => 0x805#12
  | .rnd06 => 0x806#12
  | .rnd07 => 0x807#12
  | .rnd08 => 0x808#12
  | .rnd09 => 0x809#12
  | .rnd10 => 0x80A#12
  | .rnd11 => 0x80B#12
  | .rnd12 => 0x80C#12
  | .rnd13 => 0x80D#12
  | .rnd14 => 0x80E#12
  | .rnd15 => 0x80F#12
  | .rnd16 => 0x810#12
  | .rnd17 => 0x811#12
  | .rnd18 => 0x812#12
  | .rnd19 => 0x813#12
  | .rnd20 => 0x814#12
  | .rnd21 => 0x815#12
  | .rnd22 => 0x816#12
  | .rnd23 => 0x817#12
  | .rnd24 => 0x818#12
  | .rnd25 => 0x819#12
  | .rnd26 => 0x81A#12
  | .rnd27 => 0x81B#12
  | .rnd28 => 0x81C#12
  | .rnd29 => 0x81D#12
  | .rnd30 => 0x81E#12
  | .rnd31 => 0x81F#12
  | .rnd32 => 0x820#12
  | .rnd33 => 0x821#12
  | .rnd34 => 0x822#12
  | .rnd35 => 0x823#12
  | .rnd36 => 0x824#12
  | .rnd37 => 0x825#12
  | .rnd38 => 0x826#12
  | .rnd39 => 0x827#12
  | .rnd40 => 0x828#12
  | .rnd41 => 0x829#12
  | .rnd42 => 0x82A#12
  | .rnd43 => 0x82B#12
  | .rnd44 => 0x82C#12
  | .rnd45 => 0x82D#12
  | .rnd46 => 0x82E#12
  | .rnd47 => 0x82F#12
  | .rnd48 => 0x830#12
  | .rnd49 => 0x831#12
  | .rnd50 => 0x832#12
  | .rnd51 => 0x833#12
  | .rnd52 => 0x834#12
  | .rnd53 => 0x835#12
  | .rnd54 => 0x836#12
  | .rnd55 => 0x837#12
  | .rnd56 => 0x838#12
  | .rnd57 => 0x839#12
  | .rnd58 => 0x83A#12
  | .rnd59 => 0x83B#12
  | .rnd60 => 0x83C#12
  | .rnd61 => 0x83D#12
  | .rnd62 => 0x83E#12
  | .rnd63 => 0x83F#12
  | .addbk => 0xA00#12

/-- The bits of a word that carry an operand: `byte` of `DATA` (R73); no other operation has one (R77). -/
def Instr.operandBits : Instr → BitVec 12
  | .data b => b.setWidth 12
  | _ => 0#12

/-- The canonical word of an operation: its pattern, its operand, every ignored bit zero (R73, R75, R80). -/
def encode (i : Instr) : BitVec 12 := i.pattern ||| i.operandBits

end Sys2Proof
end

