-- ==== Sys2Proof/Machine/Flags.lean ====
section
/-! DEFINITION. The derived flags and the status register (10_state.md R32 to R34). No operation computes a condition code
(R32); the stored flags are written by `raise`, `INIT` and `RESET` in Machine/Ops.lean. -/

namespace Sys2Proof.Machine

/-- `RDY = 1` in exactly these phases (R29, R33). -/
def Phase.ready : Phase → Bool
  | .idle | .absorb | .done | .error => true
  | .pad | .load | .round | .addbk => false

/-- `RDY`, a function of `PHASE` (R33). -/
def rdy (s : State) : Bool := s.phase.ready

/-- `DV = 1` if and only if `PHASE = DONE` (R33). -/
def dv (s : State) : Bool := s.phase = .done

/-- `STATUS[7:0]`: 0, `PHASE`, `PERR`, `OVF`, `DV`, `RDY` from bit 7 down (R34). -/
def status (s : State) : BitVec 8 :=
  0#1 ++ s.phase.code ++ BitVec.ofBool s.perr ++ BitVec.ofBool s.ovf ++ BitVec.ofBool (dv s) ++ BitVec.ofBool (rdy s)

end Sys2Proof.Machine
end

