-- ==== Sys2Proof/Machine/Sequencer.lean ====
section
/-! DEFINITION. How a step is chosen (30_encoding.md R70, R74, R78): the stuck states, the selector `USEL`, the fetched word, and
the placing of a given word where the next step fetches it. -/

namespace Sys2Proof.Machine

/-- The states to which the spec gives no step but `RESET`: those R78 lists, then those outside items 1 to 5 and 7 of R40
("states outside it are treated by R78"; 92 D28; 93 U1, U6). Item 6 holds by the width of `LEN`; item 8 speaks of the history. -/
def stuckReason (s : State) : Option Fault :=
  if 64 < s.fill.toNat then some .fillAbove64
  else if s.phase.compressing = true ∧ s.fill ≠ 64#7 then some .partialBlock
  else if s.phase = .pad ∧ s.padst = .none then some .padWithoutFinal
  else if s.phase = .addbk ∧ s.padst = .p80 then some .addbkBeforePad
  else if s.phase.compressing = false ∧ s.fill = 64#7 then some .fullBlockWaiting
  else if s.phase ≠ .round ∧ s.rnd ≠ 0#6 then some .roundIndexSet
  else if (s.phase = .idle ∨ s.phase = .absorb ∨ s.phase = .error) ∧ s.padst ≠ .none then some .padstOfPhase
  else if s.phase = .done ∧ s.padst ≠ .pl then some .padstOfPhase
  else if s.phase = .done ∧ s.fill ≠ 0#7 then some .doneWithBytes
  else if s.phase = .pad ∧ s.padst = .pl ∧ s.fill.toNat < 56 then some .lengthPosition
  else if s.phase = .absorb ∧ s.fill.toNat ≠ s.len.toNat % 64 then some .fillNotLength
  else if s.ovf ≠ decide (s.phase = .error) then some .overflowFlag
  else if s.phase = .error ∧ s.len ≠ Config.maxLen then some .errorLength
  else none

/-- `USEL = {PHASE[2:0], PADST[1:0], Z, RND[5:0]}` with `Z = 1` if `FILL == 56` (R74). -/
def usel (s : State) : BitVec 12 :=
  s.phase.code ++ s.padst.code ++ BitVec.ofBool (decide (s.fill = 56#7)) ++ s.rnd

/-- The word this step decodes: the command while `RDY = 1`, the selector while `RDY = 0` (R70). -/
def fetchWord (p : Pins) (s : State) : BitVec 12 := if rdy s then p.cmd.setWidth 12 else usel s

/-- What a rejected word does: it has no step. -/
def rejectFault : Reject → Fault
  | .padWithoutFinal => .padWithoutFinal
  | .readyPhase => .noMicroOperation

/-- What a step is: "exactly one of" these (R12), or stuck (R78). -/
inductive Action where
  | reset
  | stuck (f : Fault)
  | idle
  | run (i : Instr)
  deriving DecidableEq, Repr

/-- The selection of R70, from the pins and the state: `RST` first, then for a state that has a step the command if one is
accepted, the idle step if none is, or the micro-operation of `USEL`. -/
def selectAction (p : Pins) (s : State) : Action :=
  if p.rst then .reset
  else
    match stuckReason s with
    | some f => .stuck f
    | none =>
      if rdy s && !p.cv then .idle
      else
        match decode (fetchWord p s) with
        | .ok i => .run i
        | .error r => .stuck (rejectFault r)

/-- The host presents a command word: `CV = 1`, `CMD = w`. -/
def Pins.command (w : BitVec 10) : Pins := ⟨false, true, w⟩

/-- The `FILL` at which a selector can stand: 64 in a compression phase (R40 item 1), 56 where Z = 1, a byte of the length field
other than the first where `PADST = PL` and Z = 0, else the present value if it fits and 0 if not. -/
def placedFill (ph : Phase) (st : PadSt) (z : Bool) (fill : BitVec 7) : BitVec 7 :=
  if ph.compressing then 64#7
  else if z then 56#7
  else if st = .pl then (if 57 ≤ fill.toNat ∧ fill.toNat ≤ 63 then fill else 57#7)
  else if fill.toNat ≤ 63 ∧ fill ≠ 56#7 then fill
  else 0#7

/-- A state in which the core waits for a command: `s` itself if it does, else `s` with the sequencer in IDLE. -/
def madeReady (s : State) : State :=
  if rdy s then s else { s with phase := .idle, padst := .none, rnd := 0#6, fill := 0#7, ovf := false }

/-- `s` with the 12-bit word `w` where the next step fetches (log entry 2): a command on the pins of the next step, a selector in
the sequencer registers it is made of. The pins of later steps stay. -/
def placeWord (w : BitVec 12) (s : State) : State :=
  if w.toNat < 0x400 then { madeReady s with inputs := Pins.command (w.setWidth 10) :: s.inputs.tail }
  else
    let ph := Phase.ofCode (w.extractLsb' 9 3)
    let st := PadSt.ofCode (w.extractLsb' 7 2)
    { s with
      phase := ph
      padst := st
      rnd := if ph = .round then w.extractLsb' 0 6 else 0#6
      fill := placedFill ph st (w.getLsbD 6) s.fill
      ovf := decide (ph = .error)
      inputs := Pins.quiet :: s.inputs.tail }

end Sys2Proof.Machine
end

