-- ==== Sys2Proof/Machine/Step.lean ====
section
/-! DEFINITION. One step of the machine (00_scope.md R12, 30_encoding.md R70), and the placing of a word for the next step. -/

namespace Sys2Proof.Machine

/-- One step: the pins of this step are read and taken off the list, the action is selected, and it happens. -/
def step (s : State) : Host.Outcome State Fault Refusal :=
  match selectAction s.pins s.tick with
  | .reset => .next (resetCore s.tick)
  | .stuck f => .fault f
  | .idle => .next s.tick
  | .run i => exec i s.tick

/-- `s` with the instruction of `nbits` bits, the number `w`, placed so that the next step runs it (log entry 2). -/
def State.withFetchWord (s : State) (nbits w : Nat) : State := placeWord (BitVec.ofNat 12 (w % 2 ^ nbits)) s

end Sys2Proof.Machine
end

