-- ==== Sys2Proof/Machine/Assembler.lean ====
section
/-! DEFINITION. The textual form of command streams (30_encoding.md R80, R81): what a line means for the host, and how its text
is read. Layout of blanks, and a `;` inside quotes, are the model's choice (log entry 9). -/

namespace Sys2Proof.Machine

/-- What the host does for a line (R80, R81): present a command until it is accepted, hold `RST = 1` for one step, or let `n`
steps pass with `CV = 0`. -/
inductive HostAct where
  | command (w : BitVec 10)
  | reset
  | idle (n : Nat)
  deriving DecidableEq, Repr

/-- The ASCII code of a character. -/
def charByte (c : Char) : Byte := BitVec.ofNat 8 c.toNat

/-- The byte of a `DATA` operand (R80). -/
def literalByte : ByteLit → Byte
  | .hex n => BitVec.ofNat 8 n
  | .dec n => BitVec.ofNat 8 n
  | .chr c => charByte c

/-- The 10-bit word of a command (R80), the low bits of its instruction word. -/
def commandWord (i : Instr) : BitVec 10 := (encode i).setWidth 10

/-- `DATA b` (R80: `0x200 + b`). -/
def dataAct (b : Byte) : HostAct := .command (commandWord (.data b))

/-- The expansion of a line (R80, R81): `HASH "s"` is `INIT`, then `MSG "s"`, then `FINAL`. -/
def expandLine : Line → List HostAct
  | .nop => [.command (commandWord .nop)]
  | .init => [.command (commandWord .init)]
  | .data b => [dataAct (literalByte b)]
  | .final => [.command (commandWord .final)]
  | .msg s => s.map fun c => dataAct (charByte c)
  | .hash s => [.command (commandWord .init)] ++ (s.map fun c => dataAct (charByte c)) ++ [.command (commandWord .final)]
  | .reset => [.reset]
  | .idle n => [.idle n]

/-- The quotation mark of `MSG "s"`. -/
def quoteMark : Char := Char.ofNat 34
/-- The apostrophe of `'c'`. -/
def apostrophe : Char := Char.ofNat 39

/-- "`;` starts a comment" (R80), except inside `"..."` and as the character of `'c'`; `inQuote` says that a quotation mark is
open. -/
def stripComment (inQuote : Bool) : List Char → List Char
  | [] => []
  | a :: b :: c :: rest =>
    if inQuote then a :: stripComment (a != quoteMark) (b :: c :: rest)
    else if a = ';' then []
    else if a = apostrophe ∧ c = apostrophe then a :: b :: c :: stripComment false rest
    else a :: stripComment (a == quoteMark) (b :: c :: rest)
  | a :: rest =>
    if !inQuote && a = ';' then [] else a :: stripComment (if inQuote then a != quoteMark else a == quoteMark) rest

/-- A blank of a line. -/
def isBlank (c : Char) : Bool := c = ' ' || c.toNat = 9 || c.toNat = 13

/-- A line without the blanks at its two ends. -/
def trim (l : List Char) : List Char := ((l.dropWhile isBlank).reverse.dropWhile isBlank).reverse

/-- The value of a hexadecimal digit, either case. -/
def hexValue (c : Char) : Option Nat :=
  let n := c.toNat
  if 0x30 ≤ n ∧ n ≤ 0x39 then some (n - 0x30)
  else if 0x41 ≤ n ∧ n ≤ 0x46 then some (n - 0x37)
  else if 0x61 ≤ n ∧ n ≤ 0x66 then some (n - 0x57)
  else none

/-- A decimal numeral of at least one digit (R9: "a bare numeral is decimal"). -/
def decimal (l : List Char) : Option Nat :=
  if l.isEmpty then none
  else l.foldl (fun acc c => if 0x30 ≤ c.toNat ∧ c.toNat ≤ 0x39 then acc.map fun n => 10 * n + (c.toNat - 0x30) else none) (some 0)

/-- The operand of `DATA`: `0xHH`, a decimal, or `'c'` (R80). -/
def parseByteLit : List Char → Option ByteLit
  | ['0', 'x', h, l] => do return .hex (16 * (← hexValue h) + (← hexValue l))
  | [a, c, b] => if a = apostrophe ∧ b = apostrophe then some (.chr c) else (decimal [a, c, b]).map .dec
  | l => (decimal l).map .dec

/-- The characters between the quotation marks of `"s"` (R81). -/
def parseQuoted (l : List Char) : Option (List Char) :=
  match l with
  | a :: rest =>
    if a = quoteMark ∧ rest.getLast? = some quoteMark ∧ ¬ quoteMark ∈ rest.dropLast then some rest.dropLast else none
  | [] => none

/-- A line without its comment and outer blanks: "mnemonics are upper case" (R80). -/
def parseStatement (l : List Char) : Option Line :=
  let key := l.takeWhile fun c => !isBlank c
  let arg := (l.dropWhile fun c => !isBlank c).dropWhile isBlank
  if key = ['N', 'O', 'P'] ∧ arg = [] then some .nop
  else if key = ['I', 'N', 'I', 'T'] ∧ arg = [] then some .init
  else if key = ['F', 'I', 'N', 'A', 'L'] ∧ arg = [] then some .final
  else if key = ['.', 'r', 'e', 's', 'e', 't'] ∧ arg = [] then some .reset
  else if key = ['D', 'A', 'T', 'A'] then (parseByteLit arg).map .data
  else if key = ['M', 'S', 'G'] then (parseQuoted arg).map .msg
  else if key = ['H', 'A', 'S', 'H'] then (parseQuoted arg).map .hash
  else if key = ['.', 'i', 'd', 'l', 'e'] then (decimal arg).map .idle
  else none

/-- One line of text: `some []` for a blank line or a comment, `none` where it is no line of the form. -/
def assembleLine (l : List Char) : Option (List HostAct) :=
  let t := trim (stripComment false l)
  if t = [] then some []
  else
    match parseStatement t with
    | some x => if x.wf then some (expandLine x) else none
    | none => none

/-- A program, "One command per line" (R80). -/
def assemble : List (List Char) → Option (List HostAct)
  | [] => some []
  | l :: rest => do return (← assembleLine l) ++ (← assemble rest)

end Sys2Proof.Machine
end

