-- ==== Sys2Proof/Machine/Driver.lean ====
section
/-! DEFINITION. The host of R343, acting out a command stream (30_encoding.md R80, R81; 70_reset_and_hazards.md R333): it holds a
command on the pins until a step accepts it. The core's own behaviour is `step`; nothing here adds to it. -/

namespace Sys2Proof.Machine

/-- One step with the pins `p`, whatever pins the state holds for later. -/
def stepWith (p : Pins) (s : State) : Result := step { s with inputs := [p] }

/-- Present the word `c` and keep presenting it until a step with `RDY = 1` accepts it (R80, R333), for at most `n` steps: 206
always suffice from a reachable state (R341; log entry 10). Short of that the state reached is answered. -/
def present (c : BitVec 10) : Nat → State → Result
  | 0, s => .next s
  | n + 1, s =>
    match stepWith (Pins.command c) s with
    | .next t => if rdy s then .next t else present c n t
    | .fault f => .fault f
    | .refused r => .refused r

/-- `n` steps with `CV = 0` (R81, `.idle n`). -/
def idleSteps : Nat → State → Result
  | 0, s => .next s
  | n + 1, s =>
    match stepWith Pins.quiet s with
    | .next t => idleSteps n t
    | .fault f => .fault f
    | .refused r => .refused r

/-- The most steps a host waits for one command (R341). -/
def acceptBound : Nat := 206

/-- What one line's action does. -/
def act (a : HostAct) (s : State) : Result :=
  match a with
  | .command c => present c acceptBound s
  | .reset => stepWith ⟨true, false, 0#10⟩ s
  | .idle n => idleSteps n s

/-- A whole command stream, in order. -/
def runHost : List HostAct → State → Result
  | [], s => .next s
  | a :: rest, s =>
    match act a s with
    | .next t => runHost rest t
    | .fault f => .fault f
    | .refused r => .refused r

/-- Wait with `CV = 0` until `RDY = 1`, for at most `n` steps (R332: "then wait for `DV = 1` (or `RDY = 1`)"). -/
def settle : Nat → State → Result
  | 0, s => .next s
  | n + 1, s =>
    if rdy s then .next s
    else
      match stepWith Pins.quiet s with
      | .next t => settle n t
      | .fault f => .fault f
      | .refused r => .refused r

/-- The whole transaction of a message: `INIT`, one `DATA` per byte, `FINAL`, then the wait for the digest (R332, R342). -/
def transact (m : List Byte) (s : State) : Result :=
  match runHost ([.command (commandWord .init)] ++ m.map dataAct ++ [.command (commandWord .final)]) s with
  | .next t => settle acceptBound t
  | .fault f => .fault f
  | .refused r => .refused r

end Sys2Proof.Machine
end

