-- ==== Sys2Proof/Machine/Reference.lean ====
section
/-! DEFINITION. Level 0, the reference functions written from the source alone (00_scope.md R6): `pad` (41_preprocessor.md R100,
R103), `block` and `decode` (42_block_scheduler.md R120, R121), `RoundStep`, `compress`, `chain` (43_compression_core.md R141
to R143), `digest`, `hex` and `md5` (45_digest_formatter.md R150, R151). A message is a list of bytes. A block is 64 bytes by its
type and every function of blocks answers nothing where its rule gives no whole block, so there is no compression of fewer than 64
bytes (20_memory.md R56, 93 U1). What another function answers outside its rule's domain is named at it (log entry 16, DESIGN
CHOICE). -/

namespace Sys2Proof.Machine

/-- The source's one error (R103, R16 "OverflowError"). -/
inductive OverflowError where
  | overflowError
  deriving DecidableEq, Repr

/-- `z(n) = (55 - n) mod 64`, the number of zero bytes; `mod` is the non-negative remainder (R9, R100). -/
def zeroCount (n : Nat) : Nat := ((55 - (n : Int)) % 64).toNat

/-- `m ++ [0x80] ++ rep(0x00, z(|m|)) ++ LE64(8 * |m|)` (R100), the bytes of `pad(m)` for `|m| < 2^61`. Above that `pad` answers the
error of R103 and not this list, whose length field would there be reduced modulo 2^64 (log entry 16, DESIGN CHOICE). -/
def paddedBytes (m : List Byte) : List Byte :=
  m ++ [0x80#8] ++ List.replicate (zeroCount m.length) 0x00#8 ++ le64 (BitVec.ofNat 64 (8 * m.length))

/-- `pad` (R100), which fails with an `OverflowError` for `|m| >= 2^61` and never truncates (R103). -/
def pad (m : List Byte) : Except OverflowError (List Byte) :=
  if m.length < Config.messageLimit then .ok (paddedBytes m) else .error .overflowError

/-- A block, exactly 64 bytes (R120: "a 64-byte window into the Padded Buffer"; R7). -/
abbrev Block := Vector Byte 64

/-- `block(p, n) = p[64n .. 64n + 64)` for `|p|` a multiple of 64 and `n < |p| / 64` (R120), and no block outside that domain. -/
def block (p : List Byte) (n : Nat) : Option Block :=
  if h : p.length % 64 = 0 ∧ n < p.length / 64 then some (Vector.ofFn fun k : Fin 64 => p[64 * n + k.val]'(by omega)) else none

/-- `decode(q)`: `X[j] = q[4j] + 2^8 q[4j+1] + 2^16 q[4j+2] + 2^24 q[4j+3]` (R121), on 64-byte sequences and on no other. -/
def decodeBlock (q : Block) (j : Fin 16) : Word :=
  BitVec.ofNat 32 (q[4 * j.val].toNat + 2 ^ 8 * q[4 * j.val + 1].toNat + 2 ^ 16 * q[4 * j.val + 2].toNat
    + 2 ^ 24 * q[4 * j.val + 3].toNat)

/-- `RoundStep(i, (a, b, c, d), X)` with the tables `K`, `S`, `G` and the selection `NL` (R141), `0 <= i <= 63`. For a greater `i`
it follows what those four answer there (log entry 16, DESIGN CHOICE). -/
def roundStep (i : Nat) (w : Quad) (x : Fin 16 → Word) : Quad :=
  mix (nonlinear i) (roundConstant i) (shiftAmount i) w (x (wordIndex i))

/-- The first `n` rounds in order, `w_n`, `n <= 64` (R142). Past 64 it goes on with `roundStep` (log entry 16, DESIGN CHOICE). -/
def rounds (x : Fin 16 → Word) (w : Quad) : Nat → Quad
  | 0 => w
  | n + 1 => roundStep n (rounds x w n) x

/-- `compress(Hin, X)`: 64 rounds from `Hin`, then the feed-forward (R142). -/
def compress (hin : Quad) (x : Fin 16 → Word) : Quad := hin.add (rounds x hin 64)

/-- `H_n` over the blocks of the padded bytes `p` (R143). Where one of the first `n` blocks does not exist, none: the state is updated
by whole blocks only (R56, 93 U1). -/
def chainBlocks (p : List Byte) : Nat → Option Quad
  | 0 => some Quad.iv
  | n + 1 =>
    match chainBlocks p n, block p n with
    | some h, some q => some (compress h (decodeBlock q))
    | _, _ => none

/-- `chain(m) = H_N` with `p = pad(m)` and `N = |p| / 64` (R143), and none where `pad` has no value (R103). -/
def chain (m : List Byte) : Option Quad :=
  match pad m with
  | .ok p => chainBlocks p (p.length / 64)
  | .error _ => none

/-- `digest(A, B, C, D) = LE32(A) ++ LE32(B) ++ LE32(C) ++ LE32(D)` (R150). -/
def digest (q : Quad) : List Byte := le32 q.a ++ le32 q.b ++ le32 q.c ++ le32 q.d

/-- The ASCII code of a hexadecimal digit, lowercase (R151). -/
def hexDigit (v : BitVec 4) : Byte := if v.toNat ≤ 9 then 0x30#8 + v.setWidth 8 else 0x57#8 + v.setWidth 8

/-- `hex(t)` of a 16-byte digest: for each byte the digit of its high nibble, then that of its low nibble (R151). Of another
length it does the same byte by byte (log entry 16, DESIGN CHOICE). -/
def hex (t : List Byte) : List Byte := t.flatMap fun b => [hexDigit (b.extractLsb' 4 4), hexDigit (b.extractLsb' 0 4)]

/-- `md5(m) = digest(chain(m))` (R143, R150). `chain` has no value exactly where `pad` fails, and `md5` fails there with the same
error (R103). -/
def md5 (m : List Byte) : Except OverflowError (List Byte) :=
  match chain m with
  | some q => .ok (digest q)
  | none => .error .overflowError

end Sys2Proof.Machine
end

