-- ==== Sys2Proof/Machine/Ports.lean ====
section
/-! DEFINITION. The output ports, functions of the state without a side effect (10_state.md R34, R37; 45_digest_formatter.md R152,
R153; 60_exceptions.md R304). -/

namespace Sys2Proof.Machine

/-- `DIGEST[127:0]`: digest byte `n` in bits `8n+7:8n` while `DV = 1`, else 0 (R152). -/
def digestPort (s : State) : BitVec 128 := if dv s then BitVec.ofNat 128 (packLE (digest s.h)) else 0#128

/-- `HEX[255:0]`: character `n` in bits `8n+7:8n` while `DV = 1`, else 0 (R153). -/
def hexPort (s : State) : BitVec 256 := if dv s then BitVec.ofNat 256 (packLE (hex (digest s.h))) else 0#256

/-- The three level outputs `DV`, `OVF`, `PERR` a platform may route to an interrupt controller (R304). -/
structure Levels where
  dv : Bool
  ovf : Bool
  perr : Bool
  deriving DecidableEq, Repr

/-- The level outputs of a state (R304). -/
def levels (s : State) : Levels := ⟨dv s, s.ovf, s.perr⟩

/-- All that the host observes (R37). -/
structure Observation where
  rdy : Bool
  status : BitVec 8
  digest : BitVec 128
  hex : BitVec 256
  deriving DecidableEq, Repr

/-- "The host observes exactly `RDY`, `STATUS`, `DIGEST` and `HEX`" (R37). -/
def observe (s : State) : Observation := ⟨rdy s, status s, digestPort s, hexPort s⟩

end Sys2Proof.Machine
end

