-- ==== Sys2Proof/Safety.lean ====
section
/-! DEFINITION. The terms in which claims about runs are made: the invariant of the reachable states (10_state.md R40), what no
host can tell apart (R37), which commands a run accepts (R70), how many steps the core stays busy (70_reset_and_hazards.md R339),
and how a run ends (R342). -/

namespace Sys2Proof.Machine

/-- The invariant of the reachable states. Items 1 to 5 and 7 are R40's; the last three fields are the model's own, without
which R40 is not kept by every step: a compression never starts before `PAD80`, a block completed by message bytes leaves `LEN` a
multiple of 64, and `BUF` keeps its canonical form (log entry 6, DEDUCED). -/
structure Inv (s : State) : Prop where
  /-- R40 item 1, first half. -/
  fillRange : s.fill.toNat ≤ 64
  /-- R40 item 1, second half. -/
  fullBlock : s.fill = 64#7 ↔ s.phase.compressing = true
  /-- R40 item 2. -/
  roundIndex : s.phase ≠ .round → s.rnd = 0#6
  /-- R40 item 3. -/
  noPadding : s.phase = .idle ∨ s.phase = .absorb ∨ s.phase = .error → s.padst = .none
  /-- R40 item 3. -/
  padding : s.phase = .pad → s.padst ≠ .none
  /-- R40 item 3. -/
  finished : s.phase = .done → s.padst = .pl ∧ s.fill = 0#7
  /-- R40 item 4. -/
  lengthField : s.phase = .pad → s.padst = .pl → 56 ≤ s.fill.toNat ∧ s.fill.toNat ≤ 63
  /-- R40 item 5. -/
  fillOfLength : s.phase = .absorb → s.fill.toNat = s.len.toNat % 64
  /-- R40 item 7. -/
  overflow : s.ovf = true ↔ s.phase = .error
  /-- R40 item 7. -/
  errorLength : s.ovf = true → s.len = Config.maxLen
  /-- `PADST = P80` lasts from `FINAL` to the `PAD80` of the next step: no block is compressed in it (R78, R145). -/
  markFirst : s.phase.compressing = true → s.padst ≠ .p80
  /-- A block compressed before `FINAL` is full of message bytes (R107, R104). -/
  wholeBlocks : s.phase.compressing = true → s.padst = .none → s.len.toNat % 64 = 0
  /-- `BUF` is canonical. -/
  buffer : Memory.wf s.buf = true

/-- R40 item 8, "`PHASE = IDLE` only in states reached by `RESET` and then `NOP`, idle steps or protocol errors": such a state is
the reset state but for `PERR` (and the pins to come). -/
def IdleIsReset (s : State) : Prop :=
  s.phase = .idle → s = { State.reset with perr := s.perr, inputs := s.inputs }

/-- Two states, each with a canonical `BUF`, that no host can tell apart, now or later: equal but for the bytes of `BUF` not yet
written in this block and for the working registers outside ROUND and ADDBK (R23, R37; 92 D27; 93 U11). -/
structure Alike (s t : State) : Prop where
  h : s.h = t.h
  fill : s.fill = t.fill
  len : s.len = t.len
  phase : s.phase = t.phase
  padst : s.padst = t.padst
  rnd : s.rnd = t.rnd
  ovf : s.ovf = t.ovf
  perr : s.perr = t.perr
  inputs : s.inputs = t.inputs
  bytes : ∀ i, i < s.fill.toNat → Memory.read s.buf i = Memory.read t.buf i
  working : s.phase = .round ∨ s.phase = .addbk → s.w = t.w
  buffers : Memory.wf s.buf = true ∧ Memory.wf t.buf = true

/-- The command this step accepts: `RST = 0`, `RDY = 1`, `CV = 1` (R70, R71). -/
def acceptedNow (s : State) : Option Instr :=
  if s.pins.rst = false ∧ rdy s = true ∧ s.pins.cv = true then some (decodeCmd s.pins.cmd) else none

/-- The commands the first `n` steps accept, in order. -/
def accepted : Nat → State → List Instr
  | 0, _ => []
  | n + 1, s =>
    (acceptedNow s).toList ++
      match step s with
      | .next t => accepted n t
      | .fault _ | .refused _ => []

/-- No `RESET` among the pins of the next `n` steps. -/
def NoReset (n : Nat) (s : State) : Prop := ∀ p ∈ s.inputs.take n, p.rst = false

/-- `Host.Core.run` of this machine. -/
def run (n : Nat) (s : State) : Result := Host.Core.run Sys2Proof.core n s

/-- The steps of one block compression: `LOAD`, 64 rounds, `ADDBK` (R147). -/
def compressionSteps : Nat := 66

/-- The steps of the padding from the first zero byte of a block on: 56 `PADZ`, `PADSW`, 8 `PADLEN`, one compression. -/
def zeroBlockSteps : Nat := 56 + 1 + 8 + compressionSteps

/-- The steps that follow the `ADDBK` of a block, by its return link `PADST` (R30). -/
def afterBlock : PadSt → Nat
  | .none | .pl | .p80 => 0
  | .pz => zeroBlockSteps

/-- The steps still to go when `f` bytes are in the block, `PADST = PZ`: to byte 56 and on, or through the end of the block. -/
def zeroSteps (f : Nat) : Nat := if f ≤ 56 then (56 - f) + 1 + 8 + compressionSteps else (64 - f) + compressionSteps + zeroBlockSteps

/-- The number of steps until `RDY = 1` (R339, R341). -/
def busySteps (s : State) : Nat :=
  match s.phase with
  | .idle | .absorb | .done | .error => 0
  | .pad =>
    match s.padst with
    | .none => 0
    | .p80 => 1 + if s.fill.toNat = 63 then compressionSteps + zeroBlockSteps else zeroSteps (s.fill.toNat + 1)
    | .pz => zeroSteps s.fill.toNat
    | .pl => (64 - s.fill.toNat) + compressionSteps
  | .load => compressionSteps + afterBlock s.padst
  | .round => (64 - s.rnd.toNat) + 1 + afterBlock s.padst
  | .addbk => 1 + afterBlock s.padst

/-- `N(m)`, the number of blocks of an `n`-byte message (R102 e). -/
def blockCount (n : Nat) : Nat := (n + 8) / 64 + 1

/-- The steps of a transaction of an `n`-byte message besides idle steps and `NOP` (R157, R339). -/
def transactionSteps (n : Nat) : Nat := n + zeroCount n + 12 + 66 * blockCount n

/-- The pins of a host that issues one transaction without waiting between commands but for a full block: after the `DATA` that
completes block after block it lets the 66 busy steps pass (R333). `k` is the number of bytes sent before. -/
def dataPins : Nat → List Byte → List Pins
  | _, [] => []
  | k, b :: rest =>
    Pins.command (commandWord (.data b)) ::
      (if (k + 1) % 64 = 0 then List.replicate compressionSteps Pins.quiet else []) ++ dataPins (k + 1) rest

/-- `INIT`, the message, `FINAL`; past it the host presents nothing. -/
def transactionPins (m : List Byte) : List Pins :=
  Pins.command (commandWord .init) :: (dataPins 0 m ++ [Pins.command (commandWord .final)])

/-- How a run, one transaction, ends (R342). -/
inductive RunEnd where
  /-- Success: "the result is `DIGEST`, `HEX`". -/
  | success (digest : BitVec 128) (hex : BitVec 256)
  /-- Failure: `OVF`, no result. -/
  | failure
  /-- Abandoned by a `RESET` or a further accepted `INIT`: no result. -/
  | abandoned
  deriving DecidableEq, Repr

/-- Whether the step from `s` to `t`, inside an open run, ends the run (R342). -/
def runEnd (s t : State) : Option RunEnd :=
  if s.pins.rst = true ∨ acceptedNow s = some .init then some .abandoned
  else if t.phase = .done then some (.success (digestPort t) (hexPort t))
  else if t.phase = .error then some .failure
  else none

/-- The end of the run that is open in `s`, if it comes within `n` steps (R342: "While `PHASE` is `ABSORB` the run is open and has
no result"). -/
def runResult : Nat → State → Option RunEnd
  | 0, _ => none
  | n + 1, s =>
    match step s with
    | .next t => (runEnd s t).orElse fun _ => runResult n t
    | .fault _ | .refused _ => none

end Sys2Proof.Machine
end

