-- ==== Sys2Proof/Certificates/Slice0/Obligations.lean ====
section
/-! DEFINITION. The statements for the provers, each from the numbered rules of spec/. A result written as an equation with a
record update is also the operation's frame: every register, flag, byte of BUF and pin it does not name is unchanged.
A statement marked 'derived' rests on what the spec itself marks as derived, on a log entry, or on a part of a rule. -/

open Sys2Proof Sys2Proof.Machine

namespace Sys2Proof.Claims

/-- Every word of a row of R75 decodes to the row's operation. -/
def Selects (mask pat : BitVec 12) (i : Instr) : Prop := ∀ w : BitVec 12, w &&& mask = pat → decode w = .ok i

/-- Every command word with this `op` field is this command, whatever its `byte` (R72, R73). -/
def CommandSelects (op : BitVec 2) (i : Instr) : Prop := ∀ w : BitVec 10, w.extractLsb' 8 2 = op → decodeCmd w = i

/-- The bits of a word that carry an operand (R73, R77). -/
def operandMask : Instr → BitVec 12
  | .data _ => 0x0FF#12
  | _ => 0x000#12

/-- The operations of format CMD. -/
def IsCommand : Instr → Bool
  | .nop | .init | .data _ | .final => true
  | _ => false

/-- `BUF[4j] + 2^8 * BUF[4j+1] + 2^16 * BUF[4j+2] + 2^24 * BUF[4j+3]` (R25). -/
def wordAt (m : Memory) (j : Nat) : Word :=
  BitVec.ofNat 32 ((Memory.read m (4 * j)).toNat + 2 ^ 8 * (Memory.read m (4 * j + 1)).toNat
    + 2 ^ 16 * (Memory.read m (4 * j + 2)).toNat + 2 ^ 24 * (Memory.read m (4 * j + 3)).toNat)

/-- The state a round leaves (R141): `temp = a + f + k + X[j]`, `b' = b + (temp rotated left by n)`, the four registers shifted
from their old values, `RND <- r`; nothing else changes. -/
def afterRound (s : State) (f k : Word) (j n : Nat) (r : BitVec 6) : State :=
  { s with w := ⟨s.w.d, s.w.b + (s.w.a + f + k + wordAt s.buf j).rotateLeft n, s.w.b, s.w.c⟩, rnd := r }

/-- `t` is `s` after `PUSH(v, p)` (R104): `BUF[FILL] <- v` and every other byte as before, `FILL` one more, `PHASE` LOAD when the
block is complete and else `p`; no other register differs. -/
def PushedByte (v : Byte) (p : Phase) (s t : State) : Prop :=
  t = { s with buf := t.buf, fill := t.fill, phase := t.phase } ∧ t.fill.toNat = s.fill.toNat + 1 ∧
  t.phase = (if s.fill.toNat = 63 then .load else p) ∧
  ∀ a, Memory.read t.buf a = if a = s.fill.toNat then v else Memory.read s.buf a

/-- Items 1 to 5 and 7 of R40. -/
structure R40 (s : State) : Prop where
  item1 : s.fill.toNat ≤ 64 ∧ (s.fill.toNat = 64 ↔ s.phase = .load ∨ s.phase = .round ∨ s.phase = .addbk)
  item2 : s.phase ≠ .round → s.rnd.toNat = 0
  item3 : (s.phase = .idle ∨ s.phase = .absorb ∨ s.phase = .error → s.padst = .none) ∧ (s.phase = .pad → s.padst ≠ .none) ∧
    (s.phase = .done → s.padst = .pl ∧ s.fill.toNat = 0)
  item4 : s.phase = .pad → s.padst = .pl → 56 ≤ s.fill.toNat ∧ s.fill.toNat ≤ 63
  item5 : s.phase = .absorb → s.fill.toNat = s.len.toNat % 64
  item7 : (s.ovf = true ↔ s.phase = .error) ∧ (s.ovf = true → s.len.toNat = 2 ^ 61 - 1)

/-- The sequencer after a step without `RESET`, by the table of R83; `c` is the command the step accepts. -/
def nextSequencer (s : State) (c : Option Instr) : Phase × PadSt × BitVec 6 :=
  match s.phase with
  | .idle | .done | .error => if c = some .init then (.absorb, .none, 0#6) else (s.phase, s.padst, s.rnd)
  | .absorb =>
    match c with
    | some .init => (.absorb, .none, 0#6)
    | some (.data _) =>
      if s.len.toNat = 2 ^ 61 - 1 then (.error, s.padst, s.rnd)
      else if s.fill.toNat = 63 then (.load, s.padst, s.rnd) else (.absorb, s.padst, s.rnd)
    | some .final => (.pad, .p80, s.rnd)
    | _ => (.absorb, s.padst, s.rnd)
  | .pad =>
    match s.padst with
    | .p80 => (if s.fill.toNat = 63 then .load else .pad, .pz, s.rnd)
    | .pz =>
      if s.fill.toNat = 56 then (.pad, .pl, s.rnd) else (if s.fill.toNat = 63 then .load else .pad, .pz, s.rnd)
    | .pl => (if s.fill.toNat = 63 then .load else .pad, .pl, s.rnd)
    | .none => (.pad, .none, s.rnd)
  | .load => (.round, s.padst, 0#6)
  | .round => if s.rnd.toNat = 63 then (.addbk, s.padst, 0#6) else (.round, s.padst, s.rnd + 1#6)
  | .addbk =>
    match s.padst with
    | .none => (.absorb, .none, s.rnd)
    | .pz => (.pad, .pz, s.rnd)
    | .pl => (.done, .pl, s.rnd)
    | .p80 => (.addbk, .p80, s.rnd)

/-- The phase `ADDBK` returns to: `PADST` is the return link of the block compression (R30, R83). -/
def returnPhase : PadSt → Phase
  | .none => .absorb
  | .pz => .pad
  | .pl => .done
  | .p80 => .addbk

/-- The lowercase hexadecimal digit of a value below 16 (R151). -/
def hexCode (v : Nat) : Nat := if v ≤ 9 then 0x30 + v else 0x61 + (v - 10)

/-- What the host finds when the digest of `m` is ready (R157): the status, and each byte and character lane of the two ports. -/
structure ShowsDigestOf (m : List Byte) (t : State) : Prop where
  valid : dv t = true
  status : status t = 0x63#8
  flags : t.ovf = false ∧ t.perr = false
  registers : chain m = some t.h
  reference : md5 m = .ok (digest t.h)
  bytes : ∀ n, n < 16 → (digestPort t).extractLsb' (8 * n) 8 = (digest t.h).getD n 0#8
  characters : ∀ n, n < 32 → (hexPort t).extractLsb' (8 * n) 8 = (hex (digest t.h)).getD n 0#8

end Sys2Proof.Claims

/-- For every 10-bit word: op = CMD[9:8] = 0, 1, 2, 3 is NOP, INIT, DATA of CMD[7:0], FINAL; the decoder is total; the canonical
words are 0x000, 0x100, 0x200 + b, 0x300. (Stated: R72, R73.) -/
def Obligations.CommandWordsDecode : Prop :=
  (∀ w : BitVec 10,
    decodeCmd w =
      (if w.extractLsb' 8 2 = 0#2 then .nop
      else if w.extractLsb' 8 2 = 1#2 then .init
      else if w.extractLsb' 8 2 = 2#2 then .data (w.extractLsb' 0 8)
      else .final) ∧
    decode (w.setWidth 12) = .ok (decodeCmd w)) ∧
  encode .nop = 0x000#12 ∧ encode .init = 0x100#12 ∧ encode .final = 0x300#12 ∧
  ∀ b : Byte, encode (.data b) = 0x200#12 + b.setWidth 12

/-- The words of programs P1 to P4 (0x000, 0x100, 0x261 = DATA 'a', 0x2FF, 0x300) and one selector of each row shape of R75
decode to the operations they stand for; ignored bits do not matter. (Derived: 30_encoding.md sections 2 and 3,
95_test_vectors.md section 8.) -/
def Obligations.HandEncodedWordsDecode : Prop :=
  decode 0x000#12 = .ok .nop ∧ decode 0x05A#12 = .ok .nop ∧ decode 0x100#12 = .ok .init ∧ decode 0x261#12 = .ok (.data 0x61#8) ∧
  decode 0x2FF#12 = .ok (.data 0xFF#8) ∧ decode 0x300#12 = .ok .final ∧ decode 0x3FF#12 = .ok .final ∧
  decode 0x480#12 = .ok .pad80 ∧ decode 0x4FF#12 = .ok .pad80 ∧ decode 0x500#12 = .ok .padz ∧ decode 0x540#12 = .ok .padsw ∧
  decode 0x580#12 = .ok .padlen ∧ decode 0x600#12 = .ok .load ∧ decode 0x800#12 = .ok .rnd00 ∧ decode 0x92A#12 = .ok .rnd42 ∧
  decode 0x83F#12 = .ok .rnd63 ∧ decode 0xA00#12 = .ok .addbk ∧ decode 0x400#12 = .error .padWithoutFinal ∧
  decode 0xC00#12 = .error .readyPhase

/-- For every well-formed operation i, with every operand: decode (encode i) is i. For every 12-bit word w that decodes to i:
encode i is w with the bits cleared that the decoder ignores (those outside the mask of its row and its operand). The single
12-bit word for both formats is the model's choice (log entry 3). (Derived: R72, R73, R75, R77, R82.) -/
def Obligations.DecodeAndEncodeAgree : Prop :=
  (∀ i : Instr, i.wf = true → decode (encode i) = .ok i) ∧
  ∀ (w : BitVec 12) (i : Instr), decode w = .ok i → encode i = w &&& (i.mask ||| Claims.operandMask i)

/-- For every 12-bit selector w: it decodes to the micro-operation i iff w under the mask of i's row is the row's match; it is
rejected as PAD without FINAL iff PHASE = 010 and PADST = 00; it selects no micro-operation iff PHASE is 000, 001, 110 or
111. (Stated: R75.) -/
def Obligations.SelectorsDecodeByTheirRow : Prop :=
  ∀ w : BitVec 12,
    (∀ i : Instr, decodeUsel w = .ok i ↔ Claims.IsCommand i = false ∧ w &&& i.mask = i.pattern) ∧
    (decodeUsel w = .error .padWithoutFinal ↔ w &&& 0xF80#12 = 0x400#12) ∧
    (decodeUsel w = .error .readyPhase ↔
      w.extractLsb' 9 3 = 0#3 ∨ w.extractLsb' 9 3 = 1#3 ∨ w.extractLsb' 9 3 = 6#3 ∨ w.extractLsb' 9 3 = 7#3)

/-- Every register of the reset state has the reset value of the table of R20, and every byte of BUF is 0. (The list of pins to
come is the model's own and not stated here.) (Stated: R20.) -/
def Obligations.ResetStateRegisters : Prop :=
  State.reset.h = ⟨0x67452301#32, 0xEFCDAB89#32, 0x98BADCFE#32, 0x10325476#32⟩ ∧ State.reset.w = ⟨0#32, 0#32, 0#32, 0#32⟩ ∧
  (∀ k, Memory.read State.reset.buf k = 0#8) ∧ State.reset.fill = 0#7 ∧ State.reset.len = 0#61 ∧ State.reset.phase = .idle ∧
  State.reset.phase.code = 0#3 ∧ State.reset.padst = .none ∧ State.reset.padst.code = 0#2 ∧ State.reset.rnd = 0#6 ∧
  State.reset.ovf = false ∧ State.reset.perr = false

/-- For every state, stuck ones too, with RST = 1: the step answers a state with every register at its reset value, RDY = 1, DV
= 0, STATUS = 0x01, DIGEST = 0, HEX = 0, and the step accepts no command. (Stated: R330.) -/
def Obligations.ResetFromAnyState : Prop :=
  ∀ s : State, s.pins.rst = true →
    ∃ t, step s = .next t ∧ t.h = ⟨0x67452301#32, 0xEFCDAB89#32, 0x98BADCFE#32, 0x10325476#32⟩ ∧
      t.w = ⟨0#32, 0#32, 0#32, 0#32⟩ ∧ (∀ k, Memory.read t.buf k = 0#8) ∧ t.fill = 0#7 ∧ t.len = 0#61 ∧ t.phase = .idle ∧
      t.padst = .none ∧ t.rnd = 0#6 ∧ t.ovf = false ∧ t.perr = false ∧ rdy t = true ∧ dv t = false ∧ status t = 0x01#8 ∧
      digestPort t = 0#128 ∧ hexPort t = 0#256 ∧ acceptedNow s = none

/-- The reset state satisfies the invariant of the reachable states (R40 items 1 to 7 and the model's own strengthening, log
entry 6) and item 8 of R40. (Derived: 10_state.md section 11.) -/
def Obligations.ResetMeetsInvariant : Prop :=
  Inv State.reset ∧ IdleIsReset State.reset

/-- For every state s that satisfies the invariant (R40 items 1 to 7, which the spec marks as derived, and the strengthening of
log entry 6) and every pins: if the step answers t, then t satisfies it. (Derived: 10_state.md section 11, 30_encoding.md
section 8.) -/
def Obligations.StepKeepsInvariant : Prop :=
  ∀ s t : State, Inv s → step s = .next t → Inv t

/-- For every state that satisfies the invariant, whatever the pins, the step answers a next state, not a fault and not a
refusal. (Derived: 70_reset_and_hazards.md section 4 (R341), R40, R78.) -/
def Obligations.InvariantStatesHaveAStep : Prop :=
  ∀ s : State, Inv s → ∃ t, step s = .next t

/-- If in s PHASE = IDLE implies that s is the reset state but for PERR and the pins, the same holds after every step; and a
step that leaves IDLE accepted an INIT (R40 item 8, which the spec marks as derived). (Derived: 10_state.md section 11.) -/
def Obligations.IdleOnlyAfterReset : Prop :=
  ∀ s t : State, IdleIsReset s → step s = .next t →
    IdleIsReset t ∧ (s.phase = .idle → t.phase ≠ .idle → acceptedNow s = some .init)

/-- For every state of the invariant: with RST = 1 the step is the reset; with RST = 0, RDY = 1, CV = 0 the state is unchanged;
with RST = 0, RDY = 1, CV = 1 it is exec of the command decoded from CMD; with RST = 0, RDY = 0 it is exec of the micro-
operation that USEL decodes to. Around each of them the step takes one entry off the list of pins (the model's own, log
entry 1). (Derived: R70, R12.) -/
def Obligations.StepRunsDecodedInstruction : Prop :=
  ∀ s : State, Inv s →
    (s.pins.rst = true → step s = .next { State.reset with inputs := s.inputs.tail }) ∧
    (s.pins.rst = false → rdy s = true → s.pins.cv = false → step s = .next { s with inputs := s.inputs.tail }) ∧
    (s.pins.rst = false → rdy s = true → s.pins.cv = true →
      step s = exec (decodeCmd s.pins.cmd) { s with inputs := s.inputs.tail }) ∧
    (s.pins.rst = false → rdy s = false →
      ∃ i, decodeUsel (usel s) = .ok i ∧ decode (usel s) = .ok i ∧ step s = exec i { s with inputs := s.inputs.tail })

/-- For every state with RDY = 0, and any two values p, q of the pins of this step with the same RST: the step answers the same,
and no command is accepted. (The list of pins is the model's, log entry 1.) (Derived: R70, R333.) -/
def Obligations.BusyCoreIgnoresTheHost : Prop :=
  ∀ (s : State) (p q : Pins) (rest : List Pins), rdy s = false → p.rst = q.rst →
    step { s with inputs := p :: rest } = step { s with inputs := q :: rest } ∧
    acceptedNow { s with inputs := p :: rest } = none

/-- For every state that violates item 1 to 5 or 7 of R40, or has PHASE = ADDBK with PADST = P80: without RST the step is a
fault; with RST it is the reset. (That all of R40 sticks is the model's reading of R78, R40 and D28, log entry 5.) (Derived:
R78, R56, 10_state.md section 11, 92_eei_decisions.md D28.) -/
def Obligations.StatesOutsideR40HaveOnlyReset : Prop :=
  ∀ s : State, (¬ Claims.R40 s ∨ (s.phase = .addbk ∧ s.padst = .p80)) →
    (s.pins.rst = false → ∃ f, step s = .fault f) ∧ (s.pins.rst = true → step s = .next { State.reset with inputs := s.inputs.tail })

/-- For every state exec NOP answers the same state: every register, flag and byte of BUF as before, so DV, the digest, OVF and
PERR stay; every command word with op = 00 is NOP and 0x000 is its canonical word. (Stated: R105.) -/
def Obligations.NopChangesNothing : Prop :=
  (∀ s : State, exec .nop s = .next s) ∧ Claims.CommandSelects 0#2 .nop ∧ encode .nop = 0x000#12

/-- For every state exec INIT answers the state with A, B, C, D at the initial constants, LEN, FILL, RND 0, PADST NONE, OVF,
PERR 0, PHASE ABSORB; BUF and a, b, c, d keep their values, DV becomes 0; every command word with op = 01 is INIT. (Stated:
R106.) -/
def Obligations.InitOpensAMessage : Prop :=
  (∀ s : State,
    exec .init s =
      .next
        { s with
          h := ⟨0x67452301#32, 0xEFCDAB89#32, 0x98BADCFE#32, 0x10325476#32⟩
          len := 0#61
          fill := 0#7
          padst := .none
          rnd := 0#6
          ovf := false
          perr := false
          phase := .absorb }) ∧
  Claims.CommandSelects 1#2 .init ∧ encode .init = 0x100#12

/-- For every byte b and every state with a canonical BUF and FILL at most 63: if PHASE is not ABSORB only PERR is set; else if
LEN = 2^61 - 1 only OVF is set and PHASE is ERROR; else exec DATA b completes: LEN one more, BUF[FILL] = b and every other
byte as before, FILL one more, PHASE LOAD when FILL was 63 and else ABSORB, every other register unchanged. The word is
0x200 + b. (Stated: R107.) -/
def Obligations.DataAppendsAByte : Prop :=
  (∀ (b : Byte) (s : State), Memory.wf s.buf = true → s.fill.toNat ≤ 63 →
    (s.phase ≠ .absorb → exec (.data b) s = .next { s with perr := true }) ∧
    (s.phase = .absorb → s.len.toNat = 2 ^ 61 - 1 → exec (.data b) s = .next { s with ovf := true, phase := .error }) ∧
    (s.phase = .absorb → s.len.toNat ≠ 2 ^ 61 - 1 →
      ∃ t, exec (.data b) s = .next t ∧ t.len.toNat = s.len.toNat + 1 ∧
        Claims.PushedByte b .absorb { s with len := t.len } t)) ∧
  (∀ b : Byte, encode (.data b) = 0x200#12 + b.setWidth 12) ∧
  ∀ w : BitVec 10, w.extractLsb' 8 2 = 2#2 → decodeCmd w = .data (w.extractLsb' 0 8)

/-- In ABSORB with LEN = 2^61 - 1, exec DATA b answers the state with OVF = 1 and PHASE = ERROR and every other register
unchanged; STATUS is 0x75, or 0x7D if PERR was set, DV = 0 and both ports are 0; and from PHASE = ERROR every step that is
no RESET and accepts no INIT stays in ERROR with both ports 0. (Stated: R301.) -/
def Obligations.OverflowIsTaken : Prop :=
  (∀ (b : Byte) (s : State), s.phase = .absorb → s.len.toNat = 2 ^ 61 - 1 →
    exec (.data b) s = .next { s with ovf := true, phase := .error } ∧
    status { s with ovf := true, phase := .error } = (if s.perr = true then 0x7D#8 else 0x75#8) ∧
    dv { s with ovf := true, phase := .error } = false ∧ digestPort { s with ovf := true, phase := .error } = 0#128 ∧
    hexPort { s with ovf := true, phase := .error } = 0#256) ∧
  ∀ s t : State, s.phase = .error → s.pins.rst = false → acceptedNow s ≠ some .init → step s = .next t →
    t.phase = .error ∧ dv t = false ∧ digestPort t = 0#128 ∧ hexPort t = 0#256

/-- In IDLE, DONE and ERROR, exec DATA b and exec FINAL answer the state with PERR = 1 and every other register unchanged;
PHASE, DV, DIGEST and HEX stay. (Stated: R302.) -/
def Obligations.ProtocolIsTaken : Prop :=
  ∀ (b : Byte) (s : State), (s.phase = .idle ∨ s.phase = .done ∨ s.phase = .error) →
    exec (.data b) s = .next { s with perr := true } ∧ exec .final s = .next { s with perr := true } ∧
    dv { s with perr := true } = dv s ∧ digestPort { s with perr := true } = digestPort s ∧
    hexPort { s with perr := true } = hexPort s

/-- In ABSORB exec FINAL answers the state with PADST = P80, PHASE = PAD and every other register unchanged, and RDY becomes 0;
in the other ready phases only PERR is set; every command word with op = 11 is FINAL. (Stated: R108.) -/
def Obligations.FinalStartsThePadding : Prop :=
  (∀ s : State, s.phase = .absorb →
    exec .final s = .next { s with padst := .p80, phase := .pad } ∧ rdy { s with padst := .p80, phase := .pad } = false) ∧
  (∀ s : State, s.phase ≠ .absorb → exec .final s = .next { s with perr := true }) ∧
  Claims.CommandSelects 3#2 .final ∧ encode .final = 0x300#12

/-- For every state with a canonical BUF and FILL at most 63, exec PAD80 completes: PADST = PZ, BUF[FILL] = 0x80 and every other
byte as before, FILL one more, PHASE LOAD when FILL was 63 and else PAD; every other register unchanged. Its selectors are
0x480 under 0xF80. (Stated: R109.) -/
def Obligations.Pad80EmitsTheMark : Prop :=
  (∀ s : State, Memory.wf s.buf = true → s.fill.toNat ≤ 63 →
    ∃ t, exec .pad80 s = .next t ∧ Claims.PushedByte 0x80#8 .pad { s with padst := .pz } t) ∧
  Claims.Selects 0xF80#12 0x480#12 .pad80

/-- For every state with a canonical BUF and FILL at most 63, exec PADZ completes: BUF[FILL] = 0 and every other byte as before,
FILL one more, PHASE LOAD when FILL was 63 and else PAD; every other register, PADST too, unchanged. Its selectors are 0x500
under 0xFC0. (Stated: R110.) -/
def Obligations.PadzEmitsAZero : Prop :=
  (∀ s : State, Memory.wf s.buf = true → s.fill.toNat ≤ 63 →
    ∃ t, exec .padz s = .next t ∧ Claims.PushedByte 0x00#8 .pad s t) ∧
  Claims.Selects 0xFC0#12 0x500#12 .padz

/-- For every state exec PADSW answers the state with PADST = PL and every other register, BUF and FILL too, unchanged. Its
selectors are 0x540 under 0xFC0. (Stated: R111.) -/
def Obligations.PadswSwitches : Prop :=
  (∀ s : State, exec .padsw s = .next { s with padst := .pl }) ∧ Claims.Selects 0xFC0#12 0x540#12 .padsw

/-- For every state with a canonical BUF and 56 <= FILL <= 63, exec PADLEN completes: BUF[FILL] is byte k = FILL - 56 of the
64-bit number 8 * LEN, least significant first, every other byte as before, FILL one more, PHASE LOAD when FILL was 63 and
else PAD; every other register unchanged. Its selectors are 0x580 under 0xF80. (Stated: R112.) -/
def Obligations.PadlenEmitsALengthByte : Prop :=
  (∀ s : State, Memory.wf s.buf = true → 56 ≤ s.fill.toNat → s.fill.toNat ≤ 63 →
    ∃ t, exec .padlen s = .next t ∧
      Claims.PushedByte (BitVec.ofNat 8 (8 * s.len.toNat / 256 ^ (s.fill.toNat - 56))) .pad s t) ∧
  Claims.Selects 0xF80#12 0x580#12 .padlen

/-- For every state and k = 0..7: LENBYTE(k) is byte k of 8 * LEN, which fits in 64 bits; LENBYTE(0) is LEN[4:0] with three zero
bits below it and LENBYTE(k) is LEN[8k+4 : 8k-3] for k = 1..7 (the last two are marked as derived in R113). (Derived: R113,
R27.) -/
def Obligations.LengthBytesAreTheBitLength : Prop :=
  ∀ (s : State) (k : Nat), k < 8 →
    8 * s.len.toNat < 2 ^ 64 ∧ (bitLength s).toNat = 8 * s.len.toNat ∧
    (lengthByte s k).toNat = 8 * s.len.toNat / 256 ^ k % 256 ∧
    lengthByte s 0 = s.len.extractLsb' 0 5 ++ 0#3 ∧ (1 ≤ k → lengthByte s k = s.len.extractLsb' (8 * k - 3) 8)

/-- For every state with FILL = 64, exec LOAD answers the state with a, b, c, d = A, B, C, D, RND = 0, PHASE = ROUND and every
other register, BUF, FILL, LEN and PADST too, unchanged. Its selectors are 0x600 under 0xE00. (Stated: R124.) -/
def Obligations.LoadSeedsTheWorkingRegisters : Prop :=
  (∀ s : State, s.fill = 64#7 →
    exec .load s = .next { s with w := ⟨s.h.a, s.h.b, s.h.c, s.h.d⟩, rnd := 0#6, phase := .round }) ∧
  Claims.Selects 0xE00#12 0x600#12 .load

/-- For every state with FILL = 64 and each round i from 0 to 7: exec completes with a, b, c, d and RND as rule R(200+i) says
(function F0, its word index, K[i], S[i]) and every other register and all of BUF unchanged. The selectors of each are 0x800
+ i under 0xE3F. (The values of K[i] and the places of S[i] carry the spec's note "from general knowledge"; log entry 8.)
(Stated: R200, R201, R202, R203, R204, R205, R206, R207.) -/
def Obligations.Rounds00To07 : Prop :=
  (∀ s : State, s.fill = 64#7 →
    exec .rnd00 s = .next (Claims.afterRound s ((s.w.b &&& s.w.c) ||| (~~~s.w.b &&& s.w.d)) 0xD76AA478#32 0 7 1#6) ∧
    exec .rnd01 s = .next (Claims.afterRound s ((s.w.b &&& s.w.c) ||| (~~~s.w.b &&& s.w.d)) 0xE8C7B756#32 1 12 2#6) ∧
    exec .rnd02 s = .next (Claims.afterRound s ((s.w.b &&& s.w.c) ||| (~~~s.w.b &&& s.w.d)) 0x242070DB#32 2 17 3#6) ∧
    exec .rnd03 s = .next (Claims.afterRound s ((s.w.b &&& s.w.c) ||| (~~~s.w.b &&& s.w.d)) 0xC1BDCEEE#32 3 22 4#6) ∧
    exec .rnd04 s = .next (Claims.afterRound s ((s.w.b &&& s.w.c) ||| (~~~s.w.b &&& s.w.d)) 0xF57C0FAF#32 4 7 5#6) ∧
    exec .rnd05 s = .next (Claims.afterRound s ((s.w.b &&& s.w.c) ||| (~~~s.w.b &&& s.w.d)) 0x4787C62A#32 5 12 6#6) ∧
    exec .rnd06 s = .next (Claims.afterRound s ((s.w.b &&& s.w.c) ||| (~~~s.w.b &&& s.w.d)) 0xA8304613#32 6 17 7#6) ∧
    exec .rnd07 s = .next (Claims.afterRound s ((s.w.b &&& s.w.c) ||| (~~~s.w.b &&& s.w.d)) 0xFD469501#32 7 22 8#6)) ∧
  Claims.Selects 0xE3F#12 0x800#12 .rnd00 ∧
  Claims.Selects 0xE3F#12 0x801#12 .rnd01 ∧
  Claims.Selects 0xE3F#12 0x802#12 .rnd02 ∧
  Claims.Selects 0xE3F#12 0x803#12 .rnd03 ∧
  Claims.Selects 0xE3F#12 0x804#12 .rnd04 ∧
  Claims.Selects 0xE3F#12 0x805#12 .rnd05 ∧
  Claims.Selects 0xE3F#12 0x806#12 .rnd06 ∧
  Claims.Selects 0xE3F#12 0x807#12 .rnd07

/-- For every state with FILL = 64 and each round i from 8 to 15: exec completes with a, b, c, d and RND as rule R(200+i) says
(function F0, its word index, K[i], S[i]) and every other register and all of BUF unchanged. The selectors of each are 0x800
+ i under 0xE3F. (The values of K[i] and the places of S[i] carry the spec's note "from general knowledge"; log entry 8.)
(Stated: R208, R209, R210, R211, R212, R213, R214, R215.) -/
def Obligations.Rounds08To15 : Prop :=
  (∀ s : State, s.fill = 64#7 →
    exec .rnd08 s = .next (Claims.afterRound s ((s.w.b &&& s.w.c) ||| (~~~s.w.b &&& s.w.d)) 0x698098D8#32 8 7 9#6) ∧
    exec .rnd09 s = .next (Claims.afterRound s ((s.w.b &&& s.w.c) ||| (~~~s.w.b &&& s.w.d)) 0x8B44F7AF#32 9 12 10#6) ∧
    exec .rnd10 s = .next (Claims.afterRound s ((s.w.b &&& s.w.c) ||| (~~~s.w.b &&& s.w.d)) 0xFFFF5BB1#32 10 17 11#6) ∧
    exec .rnd11 s = .next (Claims.afterRound s ((s.w.b &&& s.w.c) ||| (~~~s.w.b &&& s.w.d)) 0x895CD7BE#32 11 22 12#6) ∧
    exec .rnd12 s = .next (Claims.afterRound s ((s.w.b &&& s.w.c) ||| (~~~s.w.b &&& s.w.d)) 0x6B901122#32 12 7 13#6) ∧
    exec .rnd13 s = .next (Claims.afterRound s ((s.w.b &&& s.w.c) ||| (~~~s.w.b &&& s.w.d)) 0xFD987193#32 13 12 14#6) ∧
    exec .rnd14 s = .next (Claims.afterRound s ((s.w.b &&& s.w.c) ||| (~~~s.w.b &&& s.w.d)) 0xA679438E#32 14 17 15#6) ∧
    exec .rnd15 s = .next (Claims.afterRound s ((s.w.b &&& s.w.c) ||| (~~~s.w.b &&& s.w.d)) 0x49B40821#32 15 22 16#6)) ∧
  Claims.Selects 0xE3F#12 0x808#12 .rnd08 ∧
  Claims.Selects 0xE3F#12 0x809#12 .rnd09 ∧
  Claims.Selects 0xE3F#12 0x80A#12 .rnd10 ∧
  Claims.Selects 0xE3F#12 0x80B#12 .rnd11 ∧
  Claims.Selects 0xE3F#12 0x80C#12 .rnd12 ∧
  Claims.Selects 0xE3F#12 0x80D#12 .rnd13 ∧
  Claims.Selects 0xE3F#12 0x80E#12 .rnd14 ∧
  Claims.Selects 0xE3F#12 0x80F#12 .rnd15

/-- For every state with FILL = 64 and each round i from 16 to 23: exec completes with a, b, c, d and RND as rule R(200+i) says
(function F1, its word index, K[i], S[i]) and every other register and all of BUF unchanged. The selectors of each are 0x800
+ i under 0xE3F. (The values of K[i] and the places of S[i] carry the spec's note "from general knowledge"; log entry 8.)
(Stated: R216, R217, R218, R219, R220, R221, R222, R223.) -/
def Obligations.Rounds16To23 : Prop :=
  (∀ s : State, s.fill = 64#7 →
    exec .rnd16 s = .next (Claims.afterRound s ((s.w.b &&& s.w.d) ||| (s.w.c &&& ~~~s.w.d)) 0xF61E2562#32 1 5 17#6) ∧
    exec .rnd17 s = .next (Claims.afterRound s ((s.w.b &&& s.w.d) ||| (s.w.c &&& ~~~s.w.d)) 0xC040B340#32 6 9 18#6) ∧
    exec .rnd18 s = .next (Claims.afterRound s ((s.w.b &&& s.w.d) ||| (s.w.c &&& ~~~s.w.d)) 0x265E5A51#32 11 14 19#6) ∧
    exec .rnd19 s = .next (Claims.afterRound s ((s.w.b &&& s.w.d) ||| (s.w.c &&& ~~~s.w.d)) 0xE9B6C7AA#32 0 20 20#6) ∧
    exec .rnd20 s = .next (Claims.afterRound s ((s.w.b &&& s.w.d) ||| (s.w.c &&& ~~~s.w.d)) 0xD62F105D#32 5 5 21#6) ∧
    exec .rnd21 s = .next (Claims.afterRound s ((s.w.b &&& s.w.d) ||| (s.w.c &&& ~~~s.w.d)) 0x02441453#32 10 9 22#6) ∧
    exec .rnd22 s = .next (Claims.afterRound s ((s.w.b &&& s.w.d) ||| (s.w.c &&& ~~~s.w.d)) 0xD8A1E681#32 15 14 23#6) ∧
    exec .rnd23 s = .next (Claims.afterRound s ((s.w.b &&& s.w.d) ||| (s.w.c &&& ~~~s.w.d)) 0xE7D3FBC8#32 4 20 24#6)) ∧
  Claims.Selects 0xE3F#12 0x810#12 .rnd16 ∧
  Claims.Selects 0xE3F#12 0x811#12 .rnd17 ∧
  Claims.Selects 0xE3F#12 0x812#12 .rnd18 ∧
  Claims.Selects 0xE3F#12 0x813#12 .rnd19 ∧
  Claims.Selects 0xE3F#12 0x814#12 .rnd20 ∧
  Claims.Selects 0xE3F#12 0x815#12 .rnd21 ∧
  Claims.Selects 0xE3F#12 0x816#12 .rnd22 ∧
  Claims.Selects 0xE3F#12 0x817#12 .rnd23

/-- For every state with FILL = 64 and each round i from 24 to 31: exec completes with a, b, c, d and RND as rule R(200+i) says
(function F1, its word index, K[i], S[i]) and every other register and all of BUF unchanged. The selectors of each are 0x800
+ i under 0xE3F. (The values of K[i] and the places of S[i] carry the spec's note "from general knowledge"; log entry 8.)
(Stated: R224, R225, R226, R227, R228, R229, R230, R231.) -/
def Obligations.Rounds24To31 : Prop :=
  (∀ s : State, s.fill = 64#7 →
    exec .rnd24 s = .next (Claims.afterRound s ((s.w.b &&& s.w.d) ||| (s.w.c &&& ~~~s.w.d)) 0x21E1CDE6#32 9 5 25#6) ∧
    exec .rnd25 s = .next (Claims.afterRound s ((s.w.b &&& s.w.d) ||| (s.w.c &&& ~~~s.w.d)) 0xC33707D6#32 14 9 26#6) ∧
    exec .rnd26 s = .next (Claims.afterRound s ((s.w.b &&& s.w.d) ||| (s.w.c &&& ~~~s.w.d)) 0xF4D50D87#32 3 14 27#6) ∧
    exec .rnd27 s = .next (Claims.afterRound s ((s.w.b &&& s.w.d) ||| (s.w.c &&& ~~~s.w.d)) 0x455A14ED#32 8 20 28#6) ∧
    exec .rnd28 s = .next (Claims.afterRound s ((s.w.b &&& s.w.d) ||| (s.w.c &&& ~~~s.w.d)) 0xA9E3E905#32 13 5 29#6) ∧
    exec .rnd29 s = .next (Claims.afterRound s ((s.w.b &&& s.w.d) ||| (s.w.c &&& ~~~s.w.d)) 0xFCEFA3F8#32 2 9 30#6) ∧
    exec .rnd30 s = .next (Claims.afterRound s ((s.w.b &&& s.w.d) ||| (s.w.c &&& ~~~s.w.d)) 0x676F02D9#32 7 14 31#6) ∧
    exec .rnd31 s = .next (Claims.afterRound s ((s.w.b &&& s.w.d) ||| (s.w.c &&& ~~~s.w.d)) 0x8D2A4C8A#32 12 20 32#6)) ∧
  Claims.Selects 0xE3F#12 0x818#12 .rnd24 ∧
  Claims.Selects 0xE3F#12 0x819#12 .rnd25 ∧
  Claims.Selects 0xE3F#12 0x81A#12 .rnd26 ∧
  Claims.Selects 0xE3F#12 0x81B#12 .rnd27 ∧
  Claims.Selects 0xE3F#12 0x81C#12 .rnd28 ∧
  Claims.Selects 0xE3F#12 0x81D#12 .rnd29 ∧
  Claims.Selects 0xE3F#12 0x81E#12 .rnd30 ∧
  Claims.Selects 0xE3F#12 0x81F#12 .rnd31

/-- For every state with FILL = 64 and each round i from 32 to 39: exec completes with a, b, c, d and RND as rule R(200+i) says
(function F2, its word index, K[i], S[i]) and every other register and all of BUF unchanged. The selectors of each are 0x800
+ i under 0xE3F. (The values of K[i] and the places of S[i] carry the spec's note "from general knowledge"; log entry 8.)
(Stated: R232, R233, R234, R235, R236, R237, R238, R239.) -/
def Obligations.Rounds32To39 : Prop :=
  (∀ s : State, s.fill = 64#7 →
    exec .rnd32 s = .next (Claims.afterRound s (s.w.b ^^^ s.w.c ^^^ s.w.d) 0xFFFA3942#32 5 4 33#6) ∧
    exec .rnd33 s = .next (Claims.afterRound s (s.w.b ^^^ s.w.c ^^^ s.w.d) 0x8771F681#32 8 11 34#6) ∧
    exec .rnd34 s = .next (Claims.afterRound s (s.w.b ^^^ s.w.c ^^^ s.w.d) 0x6D9D6122#32 11 16 35#6) ∧
    exec .rnd35 s = .next (Claims.afterRound s (s.w.b ^^^ s.w.c ^^^ s.w.d) 0xFDE5380C#32 14 23 36#6) ∧
    exec .rnd36 s = .next (Claims.afterRound s (s.w.b ^^^ s.w.c ^^^ s.w.d) 0xA4BEEA44#32 1 4 37#6) ∧
    exec .rnd37 s = .next (Claims.afterRound s (s.w.b ^^^ s.w.c ^^^ s.w.d) 0x4BDECFA9#32 4 11 38#6) ∧
    exec .rnd38 s = .next (Claims.afterRound s (s.w.b ^^^ s.w.c ^^^ s.w.d) 0xF6BB4B60#32 7 16 39#6) ∧
    exec .rnd39 s = .next (Claims.afterRound s (s.w.b ^^^ s.w.c ^^^ s.w.d) 0xBEBFBC70#32 10 23 40#6)) ∧
  Claims.Selects 0xE3F#12 0x820#12 .rnd32 ∧
  Claims.Selects 0xE3F#12 0x821#12 .rnd33 ∧
  Claims.Selects 0xE3F#12 0x822#12 .rnd34 ∧
  Claims.Selects 0xE3F#12 0x823#12 .rnd35 ∧
  Claims.Selects 0xE3F#12 0x824#12 .rnd36 ∧
  Claims.Selects 0xE3F#12 0x825#12 .rnd37 ∧
  Claims.Selects 0xE3F#12 0x826#12 .rnd38 ∧
  Claims.Selects 0xE3F#12 0x827#12 .rnd39

/-- For every state with FILL = 64 and each round i from 40 to 47: exec completes with a, b, c, d and RND as rule R(200+i) says
(function F2, its word index, K[i], S[i]) and every other register and all of BUF unchanged. The selectors of each are 0x800
+ i under 0xE3F. (The values of K[i] and the places of S[i] carry the spec's note "from general knowledge"; log entry 8.)
(Stated: R240, R241, R242, R243, R244, R245, R246, R247.) -/
def Obligations.Rounds40To47 : Prop :=
  (∀ s : State, s.fill = 64#7 →
    exec .rnd40 s = .next (Claims.afterRound s (s.w.b ^^^ s.w.c ^^^ s.w.d) 0x289B7EC6#32 13 4 41#6) ∧
    exec .rnd41 s = .next (Claims.afterRound s (s.w.b ^^^ s.w.c ^^^ s.w.d) 0xEAA127FA#32 0 11 42#6) ∧
    exec .rnd42 s = .next (Claims.afterRound s (s.w.b ^^^ s.w.c ^^^ s.w.d) 0xD4EF3085#32 3 16 43#6) ∧
    exec .rnd43 s = .next (Claims.afterRound s (s.w.b ^^^ s.w.c ^^^ s.w.d) 0x04881D05#32 6 23 44#6) ∧
    exec .rnd44 s = .next (Claims.afterRound s (s.w.b ^^^ s.w.c ^^^ s.w.d) 0xD9D4D039#32 9 4 45#6) ∧
    exec .rnd45 s = .next (Claims.afterRound s (s.w.b ^^^ s.w.c ^^^ s.w.d) 0xE6DB99E5#32 12 11 46#6) ∧
    exec .rnd46 s = .next (Claims.afterRound s (s.w.b ^^^ s.w.c ^^^ s.w.d) 0x1FA27CF8#32 15 16 47#6) ∧
    exec .rnd47 s = .next (Claims.afterRound s (s.w.b ^^^ s.w.c ^^^ s.w.d) 0xC4AC5665#32 2 23 48#6)) ∧
  Claims.Selects 0xE3F#12 0x828#12 .rnd40 ∧
  Claims.Selects 0xE3F#12 0x829#12 .rnd41 ∧
  Claims.Selects 0xE3F#12 0x82A#12 .rnd42 ∧
  Claims.Selects 0xE3F#12 0x82B#12 .rnd43 ∧
  Claims.Selects 0xE3F#12 0x82C#12 .rnd44 ∧
  Claims.Selects 0xE3F#12 0x82D#12 .rnd45 ∧
  Claims.Selects 0xE3F#12 0x82E#12 .rnd46 ∧
  Claims.Selects 0xE3F#12 0x82F#12 .rnd47

/-- For every state with FILL = 64 and each round i from 48 to 55: exec completes with a, b, c, d and RND as rule R(200+i) says
(function F3, its word index, K[i], S[i]) and every other register and all of BUF unchanged. The selectors of each are 0x800
+ i under 0xE3F. (The values of K[i] and the places of S[i] carry the spec's note "from general knowledge"; log entry 8.)
(Stated: R248, R249, R250, R251, R252, R253, R254, R255.) -/
def Obligations.Rounds48To55 : Prop :=
  (∀ s : State, s.fill = 64#7 →
    exec .rnd48 s = .next (Claims.afterRound s (s.w.c ^^^ (s.w.b ||| ~~~s.w.d)) 0xF4292244#32 0 6 49#6) ∧
    exec .rnd49 s = .next (Claims.afterRound s (s.w.c ^^^ (s.w.b ||| ~~~s.w.d)) 0x432AFF97#32 7 10 50#6) ∧
    exec .rnd50 s = .next (Claims.afterRound s (s.w.c ^^^ (s.w.b ||| ~~~s.w.d)) 0xAB9423A7#32 14 15 51#6) ∧
    exec .rnd51 s = .next (Claims.afterRound s (s.w.c ^^^ (s.w.b ||| ~~~s.w.d)) 0xFC93A039#32 5 21 52#6) ∧
    exec .rnd52 s = .next (Claims.afterRound s (s.w.c ^^^ (s.w.b ||| ~~~s.w.d)) 0x655B59C3#32 12 6 53#6) ∧
    exec .rnd53 s = .next (Claims.afterRound s (s.w.c ^^^ (s.w.b ||| ~~~s.w.d)) 0x8F0CCC92#32 3 10 54#6) ∧
    exec .rnd54 s = .next (Claims.afterRound s (s.w.c ^^^ (s.w.b ||| ~~~s.w.d)) 0xFFEFF47D#32 10 15 55#6) ∧
    exec .rnd55 s = .next (Claims.afterRound s (s.w.c ^^^ (s.w.b ||| ~~~s.w.d)) 0x85845DD1#32 1 21 56#6)) ∧
  Claims.Selects 0xE3F#12 0x830#12 .rnd48 ∧
  Claims.Selects 0xE3F#12 0x831#12 .rnd49 ∧
  Claims.Selects 0xE3F#12 0x832#12 .rnd50 ∧
  Claims.Selects 0xE3F#12 0x833#12 .rnd51 ∧
  Claims.Selects 0xE3F#12 0x834#12 .rnd52 ∧
  Claims.Selects 0xE3F#12 0x835#12 .rnd53 ∧
  Claims.Selects 0xE3F#12 0x836#12 .rnd54 ∧
  Claims.Selects 0xE3F#12 0x837#12 .rnd55

/-- For every state with FILL = 64 and each round i from 56 to 63: exec completes with a, b, c, d and RND as rule R(200+i) says
(function F3, its word index, K[i], S[i]) and every other register and all of BUF unchanged; RND63 sets PHASE = ADDBK, RND =
0. The selectors of each are 0x800 + i under 0xE3F. (The values of K[i] and the places of S[i] carry the spec's note "from
general knowledge"; log entry 8.) (Stated: R256, R257, R258, R259, R260, R261, R262, R263.) -/
def Obligations.Rounds56To63 : Prop :=
  (∀ s : State, s.fill = 64#7 →
    exec .rnd56 s = .next (Claims.afterRound s (s.w.c ^^^ (s.w.b ||| ~~~s.w.d)) 0x6FA87E4F#32 8 6 57#6) ∧
    exec .rnd57 s = .next (Claims.afterRound s (s.w.c ^^^ (s.w.b ||| ~~~s.w.d)) 0xFE2CE6E0#32 15 10 58#6) ∧
    exec .rnd58 s = .next (Claims.afterRound s (s.w.c ^^^ (s.w.b ||| ~~~s.w.d)) 0xA3014314#32 6 15 59#6) ∧
    exec .rnd59 s = .next (Claims.afterRound s (s.w.c ^^^ (s.w.b ||| ~~~s.w.d)) 0x4E0811A1#32 13 21 60#6) ∧
    exec .rnd60 s = .next (Claims.afterRound s (s.w.c ^^^ (s.w.b ||| ~~~s.w.d)) 0xF7537E82#32 4 6 61#6) ∧
    exec .rnd61 s = .next (Claims.afterRound s (s.w.c ^^^ (s.w.b ||| ~~~s.w.d)) 0xBD3AF235#32 11 10 62#6) ∧
    exec .rnd62 s = .next (Claims.afterRound s (s.w.c ^^^ (s.w.b ||| ~~~s.w.d)) 0x2AD7D2BB#32 2 15 63#6) ∧
    exec .rnd63 s =
      .next { Claims.afterRound s (s.w.c ^^^ (s.w.b ||| ~~~s.w.d)) 0xEB86D391#32 9 21 0#6 with phase := .addbk }) ∧
  Claims.Selects 0xE3F#12 0x838#12 .rnd56 ∧
  Claims.Selects 0xE3F#12 0x839#12 .rnd57 ∧
  Claims.Selects 0xE3F#12 0x83A#12 .rnd58 ∧
  Claims.Selects 0xE3F#12 0x83B#12 .rnd59 ∧
  Claims.Selects 0xE3F#12 0x83C#12 .rnd60 ∧
  Claims.Selects 0xE3F#12 0x83D#12 .rnd61 ∧
  Claims.Selects 0xE3F#12 0x83E#12 .rnd62 ∧
  Claims.Selects 0xE3F#12 0x83F#12 .rnd63

/-- For every state with FILL = 64: exec ADDBK answers the state with each chaining register added to its working register
modulo 2^32, FILL = 0, and PHASE = ABSORB, PAD or DONE for PADST = NONE, PZ or PL; a, b, c, d, BUF, LEN, PADST and every
other register unchanged; RDY becomes 1 on the first and third branch and DV on the third. Its selectors are 0xA00 under
0xE00. (Stated: R145.) -/
def Obligations.AddbkFeedsForward : Prop :=
  (∀ s : State, s.fill = 64#7 →
    let sum : Quad := ⟨s.h.a + s.w.a, s.h.b + s.w.b, s.h.c + s.w.c, s.h.d + s.w.d⟩
    (s.padst = .none → exec .addbk s = .next { s with h := sum, fill := 0#7, phase := .absorb } ∧
      rdy { s with h := sum, fill := 0#7, phase := .absorb } = true) ∧
    (s.padst = .pz → exec .addbk s = .next { s with h := sum, fill := 0#7, phase := .pad }) ∧
    (s.padst = .pl → exec .addbk s = .next { s with h := sum, fill := 0#7, phase := .done } ∧
      rdy { s with h := sum, fill := 0#7, phase := .done } = true ∧ dv { s with h := sum, fill := 0#7, phase := .done } = true)) ∧
  Claims.Selects 0xE00#12 0xA00#12 .addbk

/-- LOAD, every round and ADDBK stop on FILL != 64; ADDBK stops on PADST = P80; PAD80, PADZ and a DATA that would push stop on
FILL > 63; PADLEN stops on FILL outside 56..63. (That they stop with these faults is the model's reading, log entry 5.)
(Derived: R56, R78, R104, R112, R145.) -/
def Obligations.OperationsOutsideTheirDomainStop : Prop :=
  ∀ s : State,
    (s.fill ≠ 64#7 → exec .load s = .fault .partialBlock ∧ (∀ i : BitVec 6, exec (roundInstr i) s = .fault .partialBlock) ∧
      (s.padst ≠ .p80 → exec .addbk s = .fault .partialBlock)) ∧
    (s.padst = .p80 → exec .addbk s = .fault .addbkBeforePad) ∧
    (63 < s.fill.toNat → exec .pad80 s = .fault .bufferIndex ∧ exec .padz s = .fault .bufferIndex ∧
      (s.phase = .absorb → s.len.toNat ≠ 2 ^ 61 - 1 → ∀ b : Byte, exec (.data b) s = .fault .bufferIndex)) ∧
    (s.fill.toNat < 56 ∨ 63 < s.fill.toNat → exec .padlen s = .fault .lengthPosition)

/-- For every round index i and every state with FILL = 64: the micro-operation selected by RND = i answers the state with (a,
b, c, d) = RoundStep(i, (a, b, c, d), X), where RoundStep uses the tables K and S, the index function G and the selection
NL; RND = i + 1, but for i = 63 RND = 0 and PHASE = ADDBK. (Table values: log entry 8.) (Derived: R141, R144, R137, R138,
R139, R140.) -/
def Obligations.RoundsFollowTheTemplate : Prop :=
  ∀ (i : BitVec 6) (s : State), s.fill = 64#7 →
    exec (roundInstr i) s =
      .next
        { s with
          w := roundStep i.toNat s.w (blockWord s.buf)
          rnd := if i.toNat = 63 then 0#6 else i + 1#6
          phase := if i.toNat = 63 then .addbk else s.phase }

/-- For every list of words the sum by add32 is the exact sum modulo 2^32, and it does not depend on the order of the list;
add32 is associative and commutative, and the sum of two lists in a row is add32 of their sums. (Grouping and order are what
R130 itself marks as derived.) For every word x and 1 <= n <= 31: rotl32(x, n) is ((x * 2^n) mod 2^32) + floor(x /
2^(32-n)), and its bit (j + n) mod 32 is bit j of x. (Derived: R130, R131.) -/
def Obligations.AdditionAndRotationLaws : Prop :=
  (∀ xs ys : List Word, (xs.foldl add32 0#32).toNat = (xs.map BitVec.toNat).sum % 2 ^ 32 ∧
    (xs.Perm ys → xs.foldl add32 0#32 = ys.foldl add32 0#32) ∧
    (xs ++ ys).foldl add32 0#32 = add32 (xs.foldl add32 0#32) (ys.foldl add32 0#32)) ∧
  (∀ x y z : Word, add32 (add32 x y) z = add32 x (add32 y z) ∧ add32 x y = add32 y x) ∧
  ∀ (x : Word) (n : Nat), 1 ≤ n → n ≤ 31 →
    (rotl32 x n).toNat = x.toNat * 2 ^ n % 2 ^ 32 + x.toNat / 2 ^ (32 - n) ∧
    ∀ j, j < 32 → (rotl32 x n).getLsbD ((j + n) % 32) = x.getLsbD j

/-- For all words and every bit position: F0 is c where b is 1 and d where b is 0; F1 is b where d is 1 and c where d is 0; F2
is the exclusive or of the three; F3 is c xor (b or not d). Rounds 0..15, 16..31, 32..47, 48..63 use F0, F1, F2, F3.
(Stated: R133, R134, R135, R136, R137.) -/
def Obligations.NonlinearFunctionsBitByBit : Prop :=
  (∀ (b c d : Word) (j : Nat), j < 32 →
    (f0 b c d).getLsbD j = (if b.getLsbD j = true then c.getLsbD j else d.getLsbD j) ∧
    (f1 b c d).getLsbD j = (if d.getLsbD j = true then b.getLsbD j else c.getLsbD j) ∧
    (f2 b c d).getLsbD j = ((b.getLsbD j).xor ((c.getLsbD j).xor (d.getLsbD j))) ∧
    (f3 b c d).getLsbD j = ((c.getLsbD j).xor (b.getLsbD j || !d.getLsbD j))) ∧
  ∀ i : Nat, i < 64 →
    nonlinear i = (if i / 16 = 0 then f0 else if i / 16 = 1 then f1 else if i / 16 = 2 then f2 else f3)

/-- For every buffer and j: X[j] is BUF[4j] + 2^8 BUF[4j+1] + 2^16 BUF[4j+2] + 2^24 BUF[4j+3]. For every canonical buffer, k <=
63 and byte v: after BUF[k] <- v, byte k mod 4 of X[k div 4] is v and every other byte of every word is as before. (Derived:
R25, R52, R54.) -/
def Obligations.WordViewOfTheBuffer : Prop :=
  (∀ (m : Memory) (j : Fin 16), blockWord m j = Claims.wordAt m j.val) ∧
  ∀ (m : Memory) (k : Nat) (v : Byte) (hk : k < 64), Memory.wf m = true →
    (blockWord (Memory.write m k v) ⟨k / 4, by omega⟩).extractLsb' (8 * (k % 4)) 8 = v ∧
    ∀ (k' : Nat) (hk' : k' < 64), k' ≠ k →
      (blockWord (Memory.write m k v) ⟨k' / 4, by omega⟩).extractLsb' (8 * (k' % 4)) 8 =
        (blockWord m ⟨k' / 4, by omega⟩).extractLsb' (8 * (k' % 4)) 8

/-- For all canonical buffers: if every index 0 to 63 reads the same in both, they are equal. (The canonical form is the
model's.) (Derived: 20_memory.md section 1, R50.) -/
def Obligations.EqualBuffersAreEqualData : Prop :=
  ∀ m m' : Memory, Memory.wf m = true → Memory.wf m' = true →
    (∀ k, k < 64 → Memory.read m k = Memory.read m' k) → m = m'

/-- For every state and step: if any of A, B, C, D differs after the step, then the step was a RESET, or accepted an INIT, or
was the micro-operation ADDBK. (Derived: R21, R20.) -/
def Obligations.ChainingRegistersHaveThreeWriters : Prop :=
  ∀ s t : State, step s = .next t → t.h ≠ s.h →
    s.pins.rst = true ∨ acceptedNow s = some .init ∨ (s.pins.rst = false ∧ s.phase = .addbk)

/-- For every state and every step without RESET: if the byte at an index a reads differently after the step, then a = FILL <=
63, FILL is one more after it, and the step accepted a DATA in ABSORB or was a micro-operation of PAD. (Derived: R51, R104,
R40.) -/
def Obligations.BufferIsWrittenAtFillOnly : Prop :=
  ∀ (s t : State) (a : Nat), step s = .next t → s.pins.rst = false → Memory.read t.buf a ≠ Memory.read s.buf a →
    a = s.fill.toNat ∧ s.fill.toNat ≤ 63 ∧ t.fill.toNat = s.fill.toNat + 1 ∧
    ((s.phase = .absorb ∧ ∃ b, acceptedNow s = some (.data b)) ∨ s.phase = .pad)

/-- For every state and every step without RESET that accepts no INIT: OVF and PERR, once 1, stay 1; OVF becomes 1 only if the
step accepted a DATA in ABSORB with LEN = 2^61 - 1; PERR becomes 1 only if it accepted a DATA or FINAL outside ABSORB.
(Derived: R32, R300, R307.) -/
def Obligations.ErrorFlagsAreSticky : Prop :=
  ∀ s t : State, step s = .next t → s.pins.rst = false → acceptedNow s ≠ some .init →
    (s.ovf = true → t.ovf = true) ∧ (s.perr = true → t.perr = true) ∧
    (t.ovf = true → s.ovf = true ∨
      (s.phase = .absorb ∧ s.len.toNat = 2 ^ 61 - 1 ∧ ∃ b, acceptedNow s = some (.data b))) ∧
    (t.perr = true → s.perr = true ∨
      (s.phase ≠ .absorb ∧ (acceptedNow s = some .final ∨ ∃ b, acceptedNow s = some (.data b))))

/-- For every state and every step without RESET: LEN is unchanged, or the step accepted an INIT and LEN is 0, or it accepted a
DATA in ABSORB and LEN is exactly one more as a number (so it never wraps). (Derived: R27.) -/
def Obligations.LengthCountsBytesAndNeverWraps : Prop :=
  ∀ s t : State, step s = .next t → s.pins.rst = false →
    t.len = s.len ∨ (acceptedNow s = some .init ∧ t.len.toNat = 0) ∨
    (s.phase = .absorb ∧ (∃ b, acceptedNow s = some (.data b)) ∧ t.len.toNat = s.len.toNat + 1)

/-- For every state of the invariant: with RST = 1 the step goes to IDLE, NONE, 0; without, PHASE, PADST and RND after the step
are those of the table of R83, for the command the step accepts if any. (Stated: R83.) -/
def Obligations.SequencerTransitions : Prop :=
  ∀ s t : State, Inv s → step s = .next t →
    (s.pins.rst = true → (t.phase, t.padst, t.rnd) = (.idle, .none, 0#6)) ∧
    (s.pins.rst = false → (t.phase, t.padst, t.rnd) = Claims.nextSequencer s (acceptedNow s))

/-- For every state: RDY = 1 iff PHASE is IDLE, ABSORB, DONE or ERROR; DV = 1 iff PHASE = DONE; STATUS has RDY, DV, OVF, PERR in
bits 0 to 3, PHASE in 6:4 and 0 in bit 7; it is 0x01 after reset, 0x11 in ABSORB without error, 0x63 in DONE without error,
0x75 in ERROR with OVF and without PERR. (Stated: R33, R34.) -/
def Obligations.StatusRegisterFields : Prop :=
  (∀ s : State,
    (rdy s = true ↔ s.phase = .idle ∨ s.phase = .absorb ∨ s.phase = .done ∨ s.phase = .error) ∧
    (dv s = true ↔ s.phase = .done) ∧
    (status s).getLsbD 0 = rdy s ∧ (status s).getLsbD 1 = dv s ∧ (status s).getLsbD 2 = s.ovf ∧ (status s).getLsbD 3 = s.perr ∧
    (status s).extractLsb' 4 3 = s.phase.code ∧ (status s).getLsbD 7 = false ∧
    (s.ovf = false → s.perr = false → s.phase = .absorb → status s = 0x11#8) ∧
    (s.ovf = false → s.perr = false → s.phase = .done → status s = 0x63#8) ∧
    (s.ovf = true → s.perr = false → s.phase = .error → status s = 0x75#8)) ∧
  status State.reset = 0x01#8

/-- For every state: with DV = 1, DIGEST = {D, C, B, A} and byte n of the digest is DIGEST[8n+7:8n] for n = 0..15; with DV = 0,
DIGEST = 0; and a step from DV = 1 that is no RESET and accepts no INIT keeps DV = 1 and DIGEST. (Stated: R152.) -/
def Obligations.DigestPortLanes : Prop :=
  (∀ s : State,
    (dv s = true → digestPort s = s.h.d ++ s.h.c ++ s.h.b ++ s.h.a ∧
      ∀ n, n < 16 → (digestPort s).extractLsb' (8 * n) 8 = (digest s.h).getD n 0#8) ∧
    (dv s = false → digestPort s = 0#128)) ∧
  ∀ s t : State, dv s = true → s.pins.rst = false → acceptedNow s ≠ some .init → step s = .next t →
    dv t = true ∧ digestPort t = digestPort s

/-- For every state: with DV = 1, for j = 0..15, characters 2j and 2j + 1 of HEX are the codes of the hexadecimal digits of the
high and the low nibble of digest byte j, digits 10 to 15 as a to f; hex of a digest has 32 characters; with DV = 0, HEX =
0. (Stated: R151, R153.) -/
def Obligations.HexPortCharacters : Prop :=
  ∀ s : State,
    (dv s = true → (hex (digest s.h)).length = 32 ∧
      ∀ j, j < 16 →
        ((hexPort s).extractLsb' (16 * j) 8).toNat = Claims.hexCode (((digest s.h).getD j 0#8).toNat / 16) ∧
        ((hexPort s).extractLsb' (16 * j + 8) 8).toNat = Claims.hexCode (((digest s.h).getD j 0#8).toNat % 16)) ∧
    (dv s = false → hexPort s = 0#256)

/-- For all A, B, C, D: the digest has 16 bytes, and byte 4r + k is bits 8k+7:8k of the r-th register, r = 0..3, k = 0..3.
(Derived: R150.) -/
def Obligations.DigestByteOrder : Prop :=
  ∀ q : Quad, (digest q).length = 16 ∧
    ∀ k, k < 4 →
      (digest q).getD k 0#8 = q.a.extractLsb' (8 * k) 8 ∧ (digest q).getD (4 + k) 0#8 = q.b.extractLsb' (8 * k) 8 ∧
      (digest q).getD (8 + k) 0#8 = q.c.extractLsb' (8 * k) 8 ∧ (digest q).getD (12 + k) 0#8 = q.d.extractLsb' (8 * k) 8

/-- For all states s and t, each with a canonical BUF, that differ at most in the bytes of BUF at or above FILL and in a, b, c,
d outside ROUND and ADDBK: they show the same RDY, STATUS, DIGEST and HEX; and if a step from s answers s', the step from t
answers some t' that again differs from s' at most so, both BUFs canonical. (Derived: R37, R23, 92_eei_decisions.md D27,
93_implementation_defined.md U11.) -/
def Obligations.HiddenStateNeverShows : Prop :=
  ∀ s t : State, Alike s t →
    observe s = observe t ∧ ∀ s' : State, step s = .next s' → ∃ t', step t = .next t' ∧ Alike s' t'

/-- For any two states of the invariant that are ready and have the same pins to come, the first of them an INIT: after any
number of steps the two show the same RDY, STATUS, DIGEST and HEX. (Derived: R106, R157, R37.) -/
def Obligations.InitForgetsTheHistory : Prop :=
  ∀ (s t s' : State) (n : Nat), Inv s → Inv t → rdy s = true → rdy t = true → s.inputs = t.inputs →
    acceptedNow s = some .init → run (n + 1) s = .next s' →
    ∃ t', run (n + 1) t = .next t' ∧ observe s' = observe t'

/-- For every state of the invariant: without RESET and with RDY = 0 the step answers a state with one busy step fewer to go;
the number is 0 iff RDY = 1 and at most 205; after FINAL in ABSORB it is (55 - FILL) + 10 + 66 for FILL <= 55 and (119 -
FILL) + 10 + 132 above; after a DATA accepted below the length limit it is 66 for FILL = 63 and 0 else. (The counts are
marked as derived and informative in R339.) (Derived: R339, R341.) -/
def Obligations.BusyStepsCountDown : Prop :=
  ∀ s : State, Inv s →
    (s.pins.rst = false → rdy s = false → ∃ t, step s = .next t ∧ busySteps s = busySteps t + 1) ∧
    (busySteps s = 0 ↔ rdy s = true) ∧ busySteps s ≤ 205 ∧
    (s.phase = .absorb → ∃ t, exec .final s = .next t ∧
      busySteps t = if s.fill.toNat ≤ 55 then (55 - s.fill.toNat) + 10 + 66 else (119 - s.fill.toNat) + 10 + 132) ∧
    (s.phase = .absorb → s.len.toNat ≠ 2 ^ 61 - 1 → ∀ b : Byte, ∃ t, exec (.data b) s = .next t ∧
      busySteps t = if s.fill.toNat = 63 then 66 else 0)

/-- For every state of the invariant with no RESET among the pins of the busy steps to go (at most 205): after exactly that many
steps RDY = 1, and no command was accepted meanwhile. (Derived: R341.) -/
def Obligations.CoreBecomesReady : Prop :=
  ∀ s : State, Inv s → NoReset (busySteps s) s →
    busySteps s ≤ 205 ∧ ∃ t, run (busySteps s) s = .next t ∧ rdy t = true ∧ accepted (busySteps s) s = []

/-- For every message of less than 2^61 bytes: pad succeeds; its length is |m| + 1 + z + 8 and a multiple of 64; |m| + 1 + z is
56 modulo 64; the last 8 bytes are LE64(8 * |m|); m is a prefix, the byte after it is 0x80, and the z bytes after that are
all 0x00; the number of blocks is floor((|m| + 8) / 64) + 1; the padding before the length field has 1 to 64 bytes, and 64
when |m| mod 64 = 56. (Derived: R100, R101, R102.) -/
def Obligations.PaddingShape : Prop :=
  ∀ m : List Byte, m.length < 2 ^ 61 →
    pad m = .ok (paddedBytes m) ∧ (paddedBytes m).length = m.length + 1 + zeroCount m.length + 8 ∧
    (paddedBytes m).length % 64 = 0 ∧ (m.length + 1 + zeroCount m.length) % 64 = 56 ∧
    (paddedBytes m).drop ((paddedBytes m).length - 8) = le64 (BitVec.ofNat 64 (8 * m.length)) ∧
    (paddedBytes m).take m.length = m ∧ (paddedBytes m).getD m.length 0#8 = 0x80#8 ∧
    ((paddedBytes m).drop (m.length + 1)).take (zeroCount m.length) = List.replicate (zeroCount m.length) 0x00#8 ∧
    (paddedBytes m).length / 64 = (m.length + 8) / 64 + 1 ∧
    1 + zeroCount m.length ≤ 64 ∧ (m.length % 64 = 56 → 1 + zeroCount m.length = 64)

/-- A message of 2^61 bytes or more makes pad and md5 fail with OverflowError; for every shorter one both succeed, with a digest
of 16 bytes. (Stated: R103.) -/
def Obligations.OversizedMessagesFail : Prop :=
  ∀ m : List Byte,
    (2 ^ 61 ≤ m.length → pad m = .error .overflowError ∧ md5 m = .error .overflowError) ∧
    (m.length < 2 ^ 61 → ∃ p t, pad m = .ok p ∧ md5 m = .ok t ∧ t.length = 16)

/-- For every state of the invariant with PHASE = LOAD and no RESET among the pins of the next 66 steps: after exactly 66 steps
(A, B, C, D) = compress((A, B, C, D), decode(BUF[0..63])), the working registers hold the 64th round's values, FILL = 0,
PHASE is where PADST points, every other register and BUF are unchanged, and no command was accepted. (The spec marks R147
as derived.) (Derived: R147, R142, R121.) -/
def Obligations.CompressionOfOneBlock : Prop :=
  ∀ s : State, Inv s → s.phase = .load → NoReset 66 s →
    let x := decodeBlock (Vector.ofFn fun k : Fin 64 => Memory.read s.buf k.val)
    run 66 s =
      .next
        { s with
          h := compress s.h x
          w := rounds x s.h 64
          fill := 0#7
          phase := Claims.returnPhase s.padst
          inputs := s.inputs.drop 66 } ∧
    accepted 66 s = []

/-- For every ready state of the invariant and every message m of n < 2^61 bytes: if the host presents INIT, the bytes of m and
FINAL, letting pass only the busy steps of each full block, then after exactly n + z(n) + 12 + 66 * N(n) steps, and after no
fewer than that from the first step on, PHASE = DONE, (A, B, C, D) = chain(m), STATUS = 0x63, and DIGEST and HEX hold
md5(m). (The spec marks R157 as derived.) (Derived: R157, R114, R115, R143, R150.) -/
def Obligations.TransactionTakesTheStatedSteps : Prop :=
  ∀ (s : State) (m : List Byte), Inv s → rdy s = true → m.length < 2 ^ 61 → s.inputs = transactionPins m →
    (∃ t, run (transactionSteps m.length) s = .next t ∧ t.phase = .done ∧ Claims.ShowsDigestOf m t) ∧
    ∀ k, 1 ≤ k → k < transactionSteps m.length → ∃ u, run k s = .next u ∧ u.phase ≠ .done

/-- For every state of the invariant, every number n of steps and every message m of less than 2^61 bytes: if the commands the
first n steps accept are, but for NOPs, INIT, the bytes of m in order and FINAL, and no RESET is among the pins of the first
n + 205 steps, then at most 205 steps later PHASE = DONE, (A, B, C, D) = chain(m), STATUS = 0x63, and DIGEST and HEX hold
md5(m). (The spec marks R114 and R157 as derived.) (Derived: R114, R157, R334, R341.) -/
def Obligations.EveryInterleavingComputesMd5 : Prop :=
  ∀ (s : State) (n : Nat) (m : List Byte), Inv s → m.length < 2 ^ 61 → NoReset (n + 205) s →
    (accepted n s).filter (fun i => decide (i ≠ .nop)) = .init :: (m.map Instr.data ++ [.final]) →
    ∃ k t, k ≤ 205 ∧ run (n + k) s = .next t ∧ t.phase = .done ∧ Claims.ShowsDigestOf m t

/-- For every state of the invariant and every command word: holding it on the pins until a step accepts it gives exactly its
effect on the state the core reaches when it first becomes ready. The lines NOP, INIT, DATA b, FINAL stand for 0x000, 0x100,
0x200 + b, 0x300, with b a hexadecimal or decimal number below 256 or the code of a printable character; MSG "s" stands for
one DATA per ASCII character of s, in order, with its code, and HASH "s" for INIT, MSG "s", FINAL. The line .reset holds RST
= 1 for one step, and .idle n lets n steps pass with CV = 0. (Derived: R80, R81, R333, R341.) -/
def Obligations.HeldCommandIsAcceptedOnce : Prop :=
  (∀ (c : BitVec 10) (s : State), Inv s →
    ∃ u, settle 205 s = .next u ∧ rdy u = true ∧ present c acceptBound s = exec (decodeCmd c) { u with inputs := [] }) ∧
  expandLine .nop = [.command 0x000#10] ∧ expandLine .init = [.command 0x100#10] ∧ expandLine .final = [.command 0x300#10] ∧
  (∀ n, n < 256 → expandLine (.data (.dec n)) = [.command (0x200#10 + BitVec.ofNat 10 n)] ∧
    expandLine (.data (.hex n)) = [.command (0x200#10 + BitVec.ofNat 10 n)]) ∧
  (∀ c, printableAscii c = true → expandLine (.data (.chr c)) = [.command (0x200#10 + BitVec.ofNat 10 c.toNat)]) ∧
  (∀ l : List Char, l.all ascii = true →
    expandLine (.msg l) = l.map fun c => .command (0x200#10 + BitVec.ofNat 10 c.toNat)) ∧
  (∀ l : List Char, expandLine (.hash l) = expandLine .init ++ expandLine (.msg l) ++ expandLine .final) ∧
  (expandLine .reset = [.reset] ∧ ∀ s, act .reset s = .next State.reset) ∧
  ∀ n, expandLine (.idle n) = [.idle n] ∧ ∀ s, act (.idle (n + 1)) s = run (n + 1) { s with inputs := [] }

/-- For every byte sequence p and n: if |p| is a multiple of 64 and n < |p| / 64, block(p, n) is the 64 bytes p[64n .. 64n +
64), else there is no block. decode is a bijection between the 64-byte blocks and the 16-tuples of words, with X[j] = q[4j]
+ 2^8 q[4j+1] + 2^16 q[4j+2] + 2^24 q[4j+3]. H_0 is the initial constants; H_(n+1) is compress(H_n, decode(block(p, n)))
where that block exists, and nothing else. chain(m) has a value iff |m| < 2^61, and then it is H_N over pad(m), N = |pad(m)|
/ 64. (That the functions answer nothing outside their domain is how the model says that the rules give no value there, log
entry 16.) (Derived: R120, R121, R143, R103, R56, 93_implementation_defined.md U1.) -/
def Obligations.CompressionIsOfWholeBlocksOnly : Prop :=
  (∀ (p : List Byte) (n : Nat),
    (p.length % 64 = 0 → n < p.length / 64 → ∃ q, block p n = some q ∧ q.toList = (p.drop (64 * n)).take 64) ∧
    (p.length % 64 ≠ 0 ∨ p.length / 64 ≤ n → block p n = none)) ∧
  (∀ (q : Block) (j : Fin 16),
    (decodeBlock q j).toNat = q[4 * j.val].toNat + 2 ^ 8 * q[4 * j.val + 1].toNat + 2 ^ 16 * q[4 * j.val + 2].toNat
      + 2 ^ 24 * q[4 * j.val + 3].toNat) ∧
  (∀ q q' : Block, decodeBlock q = decodeBlock q' → q = q') ∧ (∀ x : Fin 16 → Word, ∃ q : Block, decodeBlock q = x) ∧
  (∀ p : List Byte, chainBlocks p 0 = some ⟨0x67452301#32, 0xEFCDAB89#32, 0x98BADCFE#32, 0x10325476#32⟩ ∧
    ∀ (n : Nat) (t : Quad), chainBlocks p (n + 1) = some t ↔
      ∃ h q, chainBlocks p n = some h ∧ block p n = some q ∧ t = compress h (decodeBlock q)) ∧
  ∀ m : List Byte,
    (m.length < 2 ^ 61 → ∃ p h, pad m = .ok p ∧ chain m = some h ∧ chainBlocks p (p.length / 64) = some h) ∧
    (2 ^ 61 ≤ m.length → chain m = none)
end

