-- ==== Sys2Proof/Laws/Memory.lean ====
section
/-! SUPPORT. The laws of the block buffer: a read after a write, and that every write keeps the canonical form. -/

namespace Sys2Proof.Machine

/-- A canonical buffer from index `lo` on lists nothing below `lo`. -/
theorem Memory.read_below_wfFrom (m : Memory) (lo i : Nat) (h : Memory.wfFrom lo m = true) (hi : i < lo) :
    Memory.read m i = 0#8 := by
  induction m generalizing lo with
  | nil => rfl
  | cons c rest ih =>
    obtain ⟨j, u⟩ := c
    simp only [Memory.wfFrom, Bool.and_eq_true, decide_eq_true_eq] at h
    have hij : i ≠ j := by omega
    simp only [Memory.read, hij, if_false]
    exact ih (j + 1) h.2 (by omega)

/-- R51: the byte written is the byte read. -/
theorem Memory.read_write_same (m : Memory) (lo i : Nat) (v : Byte) (h : Memory.wfFrom lo m = true) :
    Memory.read (Memory.write m i v) i = v := by
  induction m generalizing lo with
  | nil => by_cases hv : v = 0#8 <;> simp [Memory.write, Memory.read, hv]
  | cons c rest ih =>
    obtain ⟨j, u⟩ := c
    have hrest : Memory.wfFrom (j + 1) rest = true := by
      simp only [Memory.wfFrom, Bool.and_eq_true] at h
      exact h.2
    unfold Memory.write
    split
    · next hlt =>
      split
      · next hv =>
        have hij : i ≠ j := by omega
        simp only [Memory.read, hij, if_false, hv]
        exact Memory.read_below_wfFrom rest (j + 1) i hrest (by omega)
      · simp [Memory.read]
    · split
      · next heq =>
        split
        · next hv => rw [hv, heq]; exact Memory.read_below_wfFrom rest (j + 1) j hrest (by omega)
        · simp [Memory.read]
      · next hne =>
        simp only [Memory.read, hne, if_false]
        exact ih (j + 1) hrest

/-- R51: a write "changes no other byte". It needs no canonical form. -/
theorem Memory.read_write_other (m : Memory) (i k : Nat) (v : Byte) (hk : k ≠ i) :
    Memory.read (Memory.write m i v) k = Memory.read m k := by
  induction m with
  | nil => by_cases hv : v = 0#8 <;> simp [Memory.write, Memory.read, hv, hk]
  | cons c rest ih =>
    obtain ⟨j, u⟩ := c
    unfold Memory.write
    split
    · split
      · rfl
      · simp [Memory.read, hk]
    · split
      · next heq =>
        have hkj : k ≠ j := by omega
        split <;> simp [Memory.read, hk, hkj]
      · simp only [Memory.read, ih]

/-- A buffer canonical from a higher index on is canonical from a lower one on. -/
theorem Memory.wfFrom_mono (m : Memory) (lo lo' : Nat) (h : Memory.wfFrom lo m = true) (hle : lo' ≤ lo) :
    Memory.wfFrom lo' m = true := by
  cases m with
  | nil => rfl
  | cons c rest =>
    obtain ⟨j, u⟩ := c
    simp only [Memory.wfFrom, Bool.and_eq_true, decide_eq_true_eq] at h ⊢
    exact ⟨⟨⟨by omega, h.1.1.2⟩, h.1.2⟩, h.2⟩

/-- A write at an index of the buffer keeps the canonical form. -/
theorem Memory.wfFrom_write (m : Memory) (lo i : Nat) (v : Byte) (h : Memory.wfFrom lo m = true) (hlo : lo ≤ i)
    (hi : i ≤ 63) : Memory.wfFrom lo (Memory.write m i v) = true := by
  induction m generalizing lo with
  | nil => by_cases hv : v = 0#8 <;> simp [Memory.write, Memory.wfFrom, hv, hlo, hi]
  | cons c rest ih =>
    obtain ⟨j, u⟩ := c
    have hj := h
    simp only [Memory.wfFrom, Bool.and_eq_true, decide_eq_true_eq, bne_iff_ne, ne_eq] at hj
    obtain ⟨⟨⟨h1, h2⟩, h3⟩, h4⟩ := hj
    unfold Memory.write
    split
    · next hlt =>
      split
      · exact h
      · next hv => simp [Memory.wfFrom, hlo, hi, hv, h2, h3, h4]; omega
    · split
      · next heq =>
        subst heq
        split
        · exact Memory.wfFrom_mono rest (i + 1) lo h4 (by omega)
        · next hv => simp [Memory.wfFrom, h1, h2, hv, h4]
      · next hlt hne => simp [Memory.wfFrom, h1, h2, h3, ih (j + 1) h4 (by omega)]

/-- Every memory operation keeps the canonical form: `MemWrite` is the only one that changes the buffer (R50, R51). -/
theorem Memory.wf_write (m : Memory) (i : Nat) (v : Byte) (h : Memory.wf m = true) (hi : i ≤ 63) :
    Memory.wf (Memory.write m i v) = true := Memory.wfFrom_write m 0 i v h (Nat.zero_le i) hi

/-- A read after a write, in one equation. -/
theorem Memory.read_write (m : Memory) (i k : Nat) (v : Byte) (h : Memory.wf m = true) :
    Memory.read (Memory.write m i v) k = if k = i then v else Memory.read m k := by
  split
  · next hk => subst hk; exact Memory.read_write_same m 0 k v h
  · next hk => exact Memory.read_write_other m i k v hk

/-- The buffer of the reset state is canonical, and every byte of it is 0 (R20). -/
theorem Memory.wf_reset : Memory.wf State.reset.buf = true := rfl

@[simp] theorem Memory.read_nil (i : Nat) : Memory.read [] i = 0#8 := rfl

/-- A canonical buffer lists no index above 63 (R50). -/
theorem Memory.read_above (m : Memory) (lo i : Nat) (h : Memory.wfFrom lo m = true) (hi : 63 < i) : Memory.read m i = 0#8 := by
  induction m generalizing lo with
  | nil => rfl
  | cons c rest ih =>
    obtain ⟨j, u⟩ := c
    simp only [Memory.wfFrom, Bool.and_eq_true, decide_eq_true_eq] at h
    have hij : i ≠ j := by omega
    simp only [Memory.read, hij, if_false]
    exact ih (j + 1) h.2

/-- The word view depends on the four bytes of its word only (R25). -/
theorem blockWord_congr (m m' : Memory) (g : Fin 16) (h : ∀ i, i < 64 → Memory.read m i = Memory.read m' i) :
    blockWord m g = blockWord m' g := by
  simp only [blockWord, h (4 * g.val) (by omega), h (4 * g.val + 1) (by omega), h (4 * g.val + 2) (by omega),
    h (4 * g.val + 3) (by omega)]

end Sys2Proof.Machine
end

