-- ==== Sys2Proof/Laws/State.lean ====
section
/-! SUPPORT. One lemma per field of State and per named update, so that no proof unfolds a record update. -/

namespace Sys2Proof.Machine

@[simp] theorem pushed_h (v : Byte) (p : Phase) (s : State) : (pushed v p s).h = s.h := rfl
@[simp] theorem pushed_w (v : Byte) (p : Phase) (s : State) : (pushed v p s).w = s.w := rfl
@[simp] theorem pushed_buf (v : Byte) (p : Phase) (s : State) : (pushed v p s).buf = Memory.write s.buf s.fill.toNat v := rfl
@[simp] theorem pushed_fill (v : Byte) (p : Phase) (s : State) : (pushed v p s).fill = s.fill + 1#7 := rfl
@[simp] theorem pushed_len (v : Byte) (p : Phase) (s : State) : (pushed v p s).len = s.len := rfl
@[simp] theorem pushed_phase (v : Byte) (p : Phase) (s : State) : (pushed v p s).phase = if s.fill + 1#7 = 64#7 then .load else p := rfl
@[simp] theorem pushed_padst (v : Byte) (p : Phase) (s : State) : (pushed v p s).padst = s.padst := rfl
@[simp] theorem pushed_rnd (v : Byte) (p : Phase) (s : State) : (pushed v p s).rnd = s.rnd := rfl
@[simp] theorem pushed_ovf (v : Byte) (p : Phase) (s : State) : (pushed v p s).ovf = s.ovf := rfl
@[simp] theorem pushed_perr (v : Byte) (p : Phase) (s : State) : (pushed v p s).perr = s.perr := rfl
@[simp] theorem pushed_inputs (v : Byte) (p : Phase) (s : State) : (pushed v p s).inputs = s.inputs := rfl

@[simp] theorem raise_overflow_h (s : State) : (raise .overflow s).h = s.h := rfl
@[simp] theorem raise_overflow_w (s : State) : (raise .overflow s).w = s.w := rfl
@[simp] theorem raise_overflow_buf (s : State) : (raise .overflow s).buf = s.buf := rfl
@[simp] theorem raise_overflow_fill (s : State) : (raise .overflow s).fill = s.fill := rfl
@[simp] theorem raise_overflow_len (s : State) : (raise .overflow s).len = s.len := rfl
@[simp] theorem raise_overflow_phase (s : State) : (raise .overflow s).phase = .error := rfl
@[simp] theorem raise_overflow_padst (s : State) : (raise .overflow s).padst = s.padst := rfl
@[simp] theorem raise_overflow_rnd (s : State) : (raise .overflow s).rnd = s.rnd := rfl
@[simp] theorem raise_overflow_ovf (s : State) : (raise .overflow s).ovf = true := rfl
@[simp] theorem raise_overflow_perr (s : State) : (raise .overflow s).perr = s.perr := rfl
@[simp] theorem raise_overflow_inputs (s : State) : (raise .overflow s).inputs = s.inputs := rfl

@[simp] theorem raise_protocol_h (s : State) : (raise .protocol s).h = s.h := rfl
@[simp] theorem raise_protocol_w (s : State) : (raise .protocol s).w = s.w := rfl
@[simp] theorem raise_protocol_buf (s : State) : (raise .protocol s).buf = s.buf := rfl
@[simp] theorem raise_protocol_fill (s : State) : (raise .protocol s).fill = s.fill := rfl
@[simp] theorem raise_protocol_len (s : State) : (raise .protocol s).len = s.len := rfl
@[simp] theorem raise_protocol_phase (s : State) : (raise .protocol s).phase = s.phase := rfl
@[simp] theorem raise_protocol_padst (s : State) : (raise .protocol s).padst = s.padst := rfl
@[simp] theorem raise_protocol_rnd (s : State) : (raise .protocol s).rnd = s.rnd := rfl
@[simp] theorem raise_protocol_ovf (s : State) : (raise .protocol s).ovf = s.ovf := rfl
@[simp] theorem raise_protocol_perr (s : State) : (raise .protocol s).perr = true := rfl
@[simp] theorem raise_protocol_inputs (s : State) : (raise .protocol s).inputs = s.inputs := rfl

@[simp] theorem opened_h (s : State) : (opened s).h = Quad.iv := rfl
@[simp] theorem opened_w (s : State) : (opened s).w = s.w := rfl
@[simp] theorem opened_buf (s : State) : (opened s).buf = s.buf := rfl
@[simp] theorem opened_fill (s : State) : (opened s).fill = 0#7 := rfl
@[simp] theorem opened_len (s : State) : (opened s).len = 0#61 := rfl
@[simp] theorem opened_phase (s : State) : (opened s).phase = .absorb := rfl
@[simp] theorem opened_padst (s : State) : (opened s).padst = .none := rfl
@[simp] theorem opened_rnd (s : State) : (opened s).rnd = 0#6 := rfl
@[simp] theorem opened_ovf (s : State) : (opened s).ovf = false := rfl
@[simp] theorem opened_perr (s : State) : (opened s).perr = false := rfl
@[simp] theorem opened_inputs (s : State) : (opened s).inputs = s.inputs := rfl

@[simp] theorem addedBack_h (p : Phase) (s : State) : (addedBack p s).h = s.h.add s.w := rfl
@[simp] theorem addedBack_w (p : Phase) (s : State) : (addedBack p s).w = s.w := rfl
@[simp] theorem addedBack_buf (p : Phase) (s : State) : (addedBack p s).buf = s.buf := rfl
@[simp] theorem addedBack_fill (p : Phase) (s : State) : (addedBack p s).fill = 0#7 := rfl
@[simp] theorem addedBack_len (p : Phase) (s : State) : (addedBack p s).len = s.len := rfl
@[simp] theorem addedBack_phase (p : Phase) (s : State) : (addedBack p s).phase = p := rfl
@[simp] theorem addedBack_padst (p : Phase) (s : State) : (addedBack p s).padst = s.padst := rfl
@[simp] theorem addedBack_rnd (p : Phase) (s : State) : (addedBack p s).rnd = s.rnd := rfl
@[simp] theorem addedBack_ovf (p : Phase) (s : State) : (addedBack p s).ovf = s.ovf := rfl
@[simp] theorem addedBack_perr (p : Phase) (s : State) : (addedBack p s).perr = s.perr := rfl
@[simp] theorem addedBack_inputs (p : Phase) (s : State) : (addedBack p s).inputs = s.inputs := rfl

@[simp] theorem tick_h (s : State) : s.tick.h = s.h := rfl
@[simp] theorem tick_w (s : State) : s.tick.w = s.w := rfl
@[simp] theorem tick_buf (s : State) : s.tick.buf = s.buf := rfl
@[simp] theorem tick_fill (s : State) : s.tick.fill = s.fill := rfl
@[simp] theorem tick_len (s : State) : s.tick.len = s.len := rfl
@[simp] theorem tick_phase (s : State) : s.tick.phase = s.phase := rfl
@[simp] theorem tick_padst (s : State) : s.tick.padst = s.padst := rfl
@[simp] theorem tick_rnd (s : State) : s.tick.rnd = s.rnd := rfl
@[simp] theorem tick_ovf (s : State) : s.tick.ovf = s.ovf := rfl
@[simp] theorem tick_perr (s : State) : s.tick.perr = s.perr := rfl
@[simp] theorem tick_inputs (s : State) : s.tick.inputs = s.inputs.tail := rfl

@[simp] theorem resetCore_h (s : State) : (resetCore s).h = Quad.iv := rfl
@[simp] theorem resetCore_w (s : State) : (resetCore s).w = Quad.zero := rfl
@[simp] theorem resetCore_buf (s : State) : (resetCore s).buf = [] := rfl
@[simp] theorem resetCore_fill (s : State) : (resetCore s).fill = 0#7 := rfl
@[simp] theorem resetCore_len (s : State) : (resetCore s).len = 0#61 := rfl
@[simp] theorem resetCore_phase (s : State) : (resetCore s).phase = .idle := rfl
@[simp] theorem resetCore_padst (s : State) : (resetCore s).padst = .none := rfl
@[simp] theorem resetCore_rnd (s : State) : (resetCore s).rnd = 0#6 := rfl
@[simp] theorem resetCore_ovf (s : State) : (resetCore s).ovf = false := rfl
@[simp] theorem resetCore_perr (s : State) : (resetCore s).perr = false := rfl
@[simp] theorem resetCore_inputs (s : State) : (resetCore s).inputs = s.inputs := rfl

end Sys2Proof.Machine
end

