-- ==== Sys2Proof/Laws/Ops.lean ====
section
/-! SUPPORT. For each shared operation, everything it can do when it answers a next state; and the same of the meanings with more
than one branch. Provers cite these instead of unfolding. -/

namespace Sys2Proof.Machine

/-- `PUSH` completes exactly while `FILL <= 63` (R104). -/
theorem push_eq {v : Byte} {p : Phase} {s : State} (h : s.fill.toNat ≤ 63) : push v p s = .next (pushed v p s) := if_pos h

theorem push_next {v : Byte} {p : Phase} {s t : State} (h : push v p s = .next t) :
    s.fill.toNat ≤ 63 ∧ t = pushed v p s := by
  unfold push at h
  split at h
  · next hf => exact ⟨hf, by simpa using h.symm⟩
  · cases h

theorem onWholeBlock_eq {s t : State} (h : s.fill = 64#7) : onWholeBlock s t = .next t := if_pos h

theorem onWholeBlock_next {s u t : State} (h : onWholeBlock s u = .next t) : s.fill = 64#7 ∧ t = u := by
  unfold onWholeBlock at h
  split at h
  · next hf => exact ⟨hf, by simpa using h.symm⟩
  · cases h

theorem onWholeBlock_fault {s t : State} (h : s.fill ≠ 64#7) : onWholeBlock s t = .fault .partialBlock := if_neg h

theorem roundOp_next {f : Word → Word → Word → Word} {g : Fin 16} {k : Word} {n : Nat} {r : BitVec 6} {s t : State}
    (h : roundOp f g k n r s = .next t) :
    s.fill = 64#7 ∧ t = { s with w := mix f k n s.w (blockWord s.buf g), rnd := r } := onWholeBlock_next h

theorem lastRoundOp_next {f : Word → Word → Word → Word} {g : Fin 16} {k : Word} {n : Nat} {s t : State}
    (h : lastRoundOp f g k n s = .next t) :
    s.fill = 64#7 ∧ t = { s with w := mix f k n s.w (blockWord s.buf g), phase := .addbk, rnd := 0#6 } :=
  onWholeBlock_next h

theorem execLoad_next {s t : State} (h : execLoad s = .next t) :
    s.fill = 64#7 ∧ t = { s with w := s.h, rnd := 0#6, phase := .round } := onWholeBlock_next h

/-- The three ways `ADDBK` goes on (R145). -/
theorem execAddbk_next {s t : State} (h : execAddbk s = .next t) :
    s.fill = 64#7 ∧ ((s.padst = .none ∧ t = addedBack .absorb s) ∨ (s.padst = .pz ∧ t = addedBack .pad s) ∨
      (s.padst = .pl ∧ t = addedBack .done s)) := by
  unfold execAddbk at h
  cases hp : s.padst <;> simp only [hp] at h
  · have := onWholeBlock_next h; exact ⟨this.1, .inl ⟨rfl, this.2⟩⟩
  · cases h
  · have := onWholeBlock_next h; exact ⟨this.1, .inr (.inl ⟨rfl, this.2⟩)⟩
  · have := onWholeBlock_next h; exact ⟨this.1, .inr (.inr ⟨rfl, this.2⟩)⟩

/-- The three outcomes of `DATA b` (R107). -/
theorem execData_next {b : Byte} {s t : State} (h : execData b s = .next t) :
    (s.phase ≠ .absorb ∧ t = raise .protocol s) ∨
    (s.phase = .absorb ∧ s.len = Config.maxLen ∧ t = raise .overflow s) ∨
    (s.phase = .absorb ∧ s.len ≠ Config.maxLen ∧ s.fill.toNat ≤ 63 ∧
      t = pushed b .absorb { s with len := s.len + 1#61 }) := by
  unfold execData at h
  split at h
  · next hp => exact .inl ⟨hp, by simpa using h.symm⟩
  · next hp =>
    have hp' : s.phase = .absorb := Classical.not_not.mp hp
    split at h
    · next hl => exact .inr (.inl ⟨hp', hl, by simpa using h.symm⟩)
    · next hl => exact .inr (.inr ⟨hp', hl, push_next h⟩)

/-- The two outcomes of `FINAL` (R108). -/
theorem execFinal_next {s t : State} (h : execFinal s = .next t) :
    (s.phase ≠ .absorb ∧ t = raise .protocol s) ∨ (s.phase = .absorb ∧ t = { s with padst := .p80, phase := .pad }) := by
  unfold execFinal at h
  split at h
  · next hp => exact .inl ⟨hp, by simpa using h.symm⟩
  · next hp => exact .inr ⟨Classical.not_not.mp hp, by simpa using h.symm⟩

theorem execPad80_next {s t : State} (h : execPad80 s = .next t) :
    s.fill.toNat ≤ 63 ∧ t = pushed 0x80#8 .pad { s with padst := .pz } := push_next h

theorem execPadz_next {s t : State} (h : execPadz s = .next t) : s.fill.toNat ≤ 63 ∧ t = pushed 0x00#8 .pad s := push_next h

/-- `PADLEN` completes for `56 <= FILL <= 63` only (R112). -/
theorem execPadlen_next {s t : State} (h : execPadlen s = .next t) :
    56 ≤ s.fill.toNat ∧ s.fill.toNat ≤ 63 ∧ t = pushed (lengthByte s (s.fill.toNat - 56)) .pad s := by
  unfold execPadlen lengthIndex at h
  by_cases hf : 56 ≤ s.fill.toNat ∧ s.fill.toNat ≤ 63
  · simp only [hf, and_self, if_true] at h
    exact ⟨hf.1, hf.2, (push_next h).2⟩
  · simp only [hf, if_false] at h
    cases h

end Sys2Proof.Machine
end

