-- ==== Sys2Proof/Laws/Select.lean ====
section
/-! SUPPORT. The selector of a state, decoded: which micro-operation each phase, padding state and fill selects (30_encoding.md
R75), and when a state has a step. -/

namespace Sys2Proof.Machine

/-- The fields of `USEL` (R74), pulled out of it again. -/
theorem usel_phase (s : State) : (usel s).extractLsb' 9 3 = s.phase.code := by
  unfold usel
  generalize s.phase.code = p
  generalize s.padst.code = q
  generalize BitVec.ofBool (decide (s.fill = 56#7)) = z
  generalize s.rnd = r
  ext i hi
  simp only [BitVec.getElem_extractLsb', BitVec.getLsbD_append]
  have h1 : ¬ (9 + i < 6) := by omega
  have h2 : ¬ (9 + i - 6 < 1) := by omega
  have h3 : ¬ (9 + i - 6 - 1 < 2) := by omega
  simp only [h1, h2, h3, if_false]
  rw [show 9 + i - 6 - 1 - 2 = i by omega, BitVec.getLsbD_eq_getElem hi]

theorem usel_padst (s : State) : (usel s).extractLsb' 7 2 = s.padst.code := by
  unfold usel
  generalize s.phase.code = p
  generalize s.padst.code = q
  generalize BitVec.ofBool (decide (s.fill = 56#7)) = z
  generalize s.rnd = r
  ext i hi
  simp only [BitVec.getElem_extractLsb', BitVec.getLsbD_append]
  have h1 : ¬ (7 + i < 6) := by omega
  have h2 : ¬ (7 + i - 6 < 1) := by omega
  have h3 : 7 + i - 6 - 1 < 2 := by omega
  simp only [h1, h2, h3, if_false, if_true]
  rw [show 7 + i - 6 - 1 = i by omega, BitVec.getLsbD_eq_getElem hi]

theorem usel_z (s : State) : (usel s).getLsbD 6 = decide (s.fill = 56#7) := by
  unfold usel
  rw [BitVec.getLsbD_append, if_neg (by omega), BitVec.getLsbD_append, if_pos (by omega)]
  simp

theorem usel_rnd (s : State) : (usel s).extractLsb' 0 6 = s.rnd := by
  unfold usel
  generalize s.phase.code = p
  generalize s.padst.code = q
  generalize BitVec.ofBool (decide (s.fill = 56#7)) = z
  generalize s.rnd = r
  ext i hi
  simp only [BitVec.getElem_extractLsb', BitVec.getLsbD_append]
  have h1 : 0 + i < 6 := by omega
  simp only [h1, if_true]
  rw [show 0 + i = i by omega, BitVec.getLsbD_eq_getElem hi]

/-- A selector with `RDY = 0` is no command word: its PHASE is 010 to 101 (R75, log entry 3). -/
theorem usel_not_command (s : State) (h : rdy s = false) : ¬ (usel s).toNat < 0x400 := by
  have hp := congrArg BitVec.toNat (usel_phase s)
  simp only [BitVec.extractLsb'_toNat, Nat.shiftRight_eq_div_pow] at hp
  have hl := (usel s).isLt
  have hc : 2 ≤ s.phase.code.toNat := by
    revert h
    unfold rdy
    cases s.phase <;> simp [Phase.ready, Phase.code]
  omega

/-- What the core decodes while busy is its selector, as a selector (R70, R74). -/
theorem decode_usel (s : State) (h : rdy s = false) : decode (usel s) = decodeUsel (usel s) :=
  if_neg (usel_not_command s h)

/-- The map of R75 on the registers of a busy state. -/
theorem decodeUsel_usel (s : State) :
    decodeUsel (usel s) =
      match s.phase with
      | .pad =>
        (match s.padst with
        | .none => .error .padWithoutFinal
        | .p80 => .ok .pad80
        | .pz => if s.fill = 56#7 then .ok .padsw else .ok .padz
        | .pl => .ok .padlen)
      | .load => .ok .load
      | .round => .ok (roundInstr s.rnd)
      | .addbk => .ok .addbk
      | .idle | .absorb | .done | .error => .error .readyPhase := by
  unfold decodeUsel
  rw [usel_phase, usel_padst, usel_z, usel_rnd]
  cases s.phase <;> simp [Phase.code]
  cases s.padst <;> simp [PadSt.code]

/-- What the core decodes while ready is the command on the pins (R70, R72). -/
theorem decode_command (w : BitVec 10) : decode (w.setWidth 12) = .ok (decodeCmd w) := by
  have h : (w.setWidth 12).toNat < 0x400 := by
    have := w.isLt
    simp only [BitVec.toNat_setWidth]
    omega
  unfold decode
  rw [if_pos h]
  congr 1
  simp

/-- A chain of guards answers nothing exactly when no guard holds. -/
theorem guard_none {c : Prop} [Decidable c] {f : Fault} {o : Option Fault} :
    (if c then some f else o) = none ↔ ¬ c ∧ o = none := by
  split <;> simp [*]

/-- A state that is not stuck, item by item (R40, R78). -/
theorem not_stuck {s : State} (h : stuckReason s = none) :
    s.fill.toNat ≤ 64 ∧ (s.fill = 64#7 ↔ s.phase.compressing = true) ∧ (s.phase ≠ .round → s.rnd = 0#6) ∧
    (s.phase = .idle ∨ s.phase = .absorb ∨ s.phase = .error → s.padst = .none) ∧ (s.phase = .pad → s.padst ≠ .none) ∧
    (s.phase = .addbk → s.padst ≠ .p80) ∧ (s.phase = .done → s.padst = .pl ∧ s.fill = 0#7) ∧
    (s.phase = .pad → s.padst = .pl → 56 ≤ s.fill.toNat ∧ s.fill.toNat ≤ 63) ∧
    (s.phase = .absorb → s.fill.toNat = s.len.toNat % 64) ∧ (s.ovf = true ↔ s.phase = .error) ∧
    (s.ovf = true → s.len = Config.maxLen) := by
  have hf : s.fill = 64#7 ↔ s.fill.toNat = 64 := by rw [← BitVec.toNat_inj]; rfl
  simp only [stuckReason, guard_none] at h
  obtain ⟨c1, c2, c3, c4, c5, c6, c7, c8, c9, c10, c11, c12, c13, -⟩ := h
  refine ⟨by omega, ⟨fun e => ?_, fun e => ?_⟩, fun e => ?_, fun e => ?_, fun e e' => c3 ⟨e, e'⟩, fun e e' => c4 ⟨e, e'⟩,
    fun e => ⟨?_, ?_⟩, fun e e' => ⟨?_, ?_⟩, fun e => ?_, ?_, fun e => ?_⟩
  · cases hc : s.phase.compressing
    · exact absurd ⟨hc, e⟩ c5
    · rfl
  · exact Classical.not_not.mp fun n => c2 ⟨e, n⟩
  · exact Classical.not_not.mp fun n => c6 ⟨e, n⟩
  · exact Classical.not_not.mp fun n => c7 ⟨e, n⟩
  · exact Classical.not_not.mp fun n => c8 ⟨e, n⟩
  · exact Classical.not_not.mp fun n => c9 ⟨e, n⟩
  · exact Nat.le_of_not_lt fun n => c10 ⟨e, e', n⟩
  · have hn : s.fill ≠ 64#7 := fun n => c5 ⟨by rw [e]; rfl, n⟩
    rw [ne_eq, hf] at hn
    omega
  · exact Classical.not_not.mp fun n => c11 ⟨e, n⟩
  · rw [Classical.not_not.mp c12]; simp
  · have hp := Classical.not_not.mp c12
    rw [e] at hp
    exact Classical.not_not.mp fun n => c13 ⟨by simpa using hp.symm, n⟩

/-- Every action the selection can answer (R70, R12). -/
theorem selectAction_run {p : Pins} {s : State} {i : Instr} (h : selectAction p s = .run i) :
    p.rst = false ∧ stuckReason s = none ∧ (rdy s = true → p.cv = true) ∧ decode (fetchWord p s) = .ok i := by
  unfold selectAction at h
  split at h
  · cases h
  · next hr =>
    split at h
    · cases h
    · next hs =>
      split at h
      · cases h
      · next hc =>
        split at h
        · next hd =>
          cases h
          refine ⟨by simpa using hr, hs, fun e => ?_, hd⟩
          simpa [e] using hc
        · cases h

end Sys2Proof.Machine
end

