-- ==== Sys2Proof/Laws/Step.lean ====
section
/-! SUPPORT. What a step can do, said once (30_encoding.md R70), and what it does in each case of the selection. -/

namespace Sys2Proof.Machine

/-- A step that answers a next state is a reset, an idle step, an accepted command or the selected micro-operation (R12, R70). -/
theorem step_cases {s t : State} (h : step s = .next t) :
    (s.pins.rst = true ∧ t = resetCore s.tick) ∨
    (s.pins.rst = false ∧ stuckReason s.tick = none ∧ rdy s = true ∧ s.pins.cv = false ∧ t = s.tick) ∨
    (s.pins.rst = false ∧ stuckReason s.tick = none ∧ rdy s = true ∧ s.pins.cv = true ∧
      exec (decodeCmd s.pins.cmd) s.tick = .next t) ∨
    (∃ i, s.pins.rst = false ∧ stuckReason s.tick = none ∧ rdy s = false ∧ decodeUsel (usel s) = .ok i ∧
      exec i s.tick = .next t) := by
  unfold step at h
  have hrt : rdy s.tick = rdy s := rfl
  have hut : usel s.tick = usel s := rfl
  cases ha : selectAction s.pins s.tick with
  | reset =>
    rw [ha] at h
    refine .inl ⟨?_, by simpa using h.symm⟩
    unfold selectAction at ha
    split at ha
    · assumption
    · split at ha
      · cases ha
      · split at ha
        · cases ha
        · split at ha <;> cases ha
  | stuck f => rw [ha] at h; cases h
  | idle =>
    rw [ha] at h
    refine .inr (.inl ?_)
    unfold selectAction at ha
    split at ha
    · cases ha
    · next hr =>
      split at ha
      · cases ha
      · next hs =>
        split at ha
        · next hc =>
          simp only [Bool.and_eq_true, Bool.not_eq_true', hrt] at hc
          exact ⟨by simpa using hr, hs, hc.1, hc.2, by simpa using h.symm⟩
        · split at ha <;> cases ha
  | run i =>
    rw [ha] at h
    obtain ⟨h1, h2, h3, h4⟩ := selectAction_run ha
    rw [hrt] at h3
    unfold fetchWord at h4
    rw [hrt, hut] at h4
    cases hr : rdy s with
    | true =>
      rw [hr, if_pos rfl, decode_command] at h4
      cases h4
      exact .inr (.inr (.inl ⟨h1, h2, rfl, h3 hr, h⟩))
    | false =>
      simp only [hr, Bool.false_eq_true, if_false] at h4
      rw [decode_usel s hr] at h4
      exact .inr (.inr (.inr ⟨i, h1, h2, rfl, h4, h⟩))

/-- A reset step (R330). -/
theorem step_reset {s : State} (h : s.pins.rst = true) : step s = .next (resetCore s.tick) := by
  simp [step, selectAction, h]

/-- An idle step (R70). -/
theorem step_idle {s : State} (h : s.pins.rst = false) (hs : stuckReason s.tick = none) (hr : rdy s = true)
    (hc : s.pins.cv = false) : step s = .next s.tick := by
  have hrt : rdy s.tick = true := hr
  simp [step, selectAction, h, hs, hc, hrt]

/-- An accepted command (R70, R71). -/
theorem step_command {s : State} (h : s.pins.rst = false) (hs : stuckReason s.tick = none) (hr : rdy s = true)
    (hc : s.pins.cv = true) : step s = exec (decodeCmd s.pins.cmd) s.tick := by
  have hrt : rdy s.tick = true := hr
  simp [step, selectAction, h, hs, hc, hrt, fetchWord, decode_command]

/-- A micro-operation (R70, R74). -/
theorem step_micro {s : State} {i : Instr} (h : s.pins.rst = false) (hs : stuckReason s.tick = none) (hr : rdy s = false)
    (hd : decodeUsel (usel s) = .ok i) : step s = exec i s.tick := by
  have hrt : rdy s.tick = false := hr
  have hut : usel s.tick = usel s := rfl
  simp [step, selectAction, h, hs, hrt, fetchWord, hut, decode_usel s hr, hd]

/-- A stuck state has no step but `RESET` (R78). -/
theorem step_stuck {s : State} {f : Fault} (h : s.pins.rst = false) (hs : stuckReason s.tick = some f) :
    step s = .fault f := by
  simp [step, selectAction, h, hs]

/-- No operation touches the pins of the coming steps (R38). -/
theorem exec_inputs {i : Instr} {s t : State} (h : exec i s = .next t) : t.inputs = s.inputs := by
  cases i
  case nop => cases h; rfl
  case init => cases h; rfl
  case data b => obtain ⟨-, rfl⟩ | ⟨-, -, rfl⟩ | ⟨-, -, -, rfl⟩ := execData_next h <;> rfl
  case final => obtain ⟨-, rfl⟩ | ⟨-, rfl⟩ := execFinal_next h <;> rfl
  case pad80 => obtain ⟨-, rfl⟩ := execPad80_next h; rfl
  case padz => obtain ⟨-, rfl⟩ := execPadz_next h; rfl
  case padsw => cases h; rfl
  case padlen => obtain ⟨-, -, rfl⟩ := execPadlen_next h; rfl
  case load => obtain ⟨-, rfl⟩ := execLoad_next h; rfl
  case addbk => obtain ⟨-, ⟨-, rfl⟩ | ⟨-, rfl⟩ | ⟨-, rfl⟩⟩ := execAddbk_next h <;> rfl
  case rnd63 => obtain ⟨-, rfl⟩ := lastRoundOp_next h; rfl
  all_goals (obtain ⟨-, rfl⟩ := roundOp_next h; rfl)

/-- Each step takes one entry off the list of pins (log entry 1). -/
theorem step_inputs {s t : State} (h : step s = .next t) : t.inputs = s.inputs.tail := by
  obtain ⟨-, rfl⟩ | ⟨-, -, -, -, rfl⟩ | ⟨-, -, -, -, hx⟩ | ⟨i, -, -, -, -, hx⟩ := step_cases h
  · rfl
  · rfl
  · exact exec_inputs hx
  · exact exec_inputs hx

end Sys2Proof.Machine
end

