-- ==== Sys2Proof/Laws/Safety.lean ====
section
/-! SUPPORT. The invariant and the stuck states: a state of the invariant has a step, and the pins do not matter to it. -/

namespace Sys2Proof.Machine

/-- The invariant says nothing about the pins. -/
theorem Inv.tick {s : State} (h : Inv s) : Inv s.tick :=
  { fillRange := h.fillRange, fullBlock := h.fullBlock, roundIndex := h.roundIndex, noPadding := h.noPadding,
    padding := h.padding, finished := h.finished, lengthField := h.lengthField, fillOfLength := h.fillOfLength,
    overflow := h.overflow, errorLength := h.errorLength, markFirst := h.markFirst, wholeBlocks := h.wholeBlocks,
    buffer := h.buffer }

/-- A state of the invariant is not stuck (R40, R78). -/
theorem Inv.not_stuck {s : State} (h : Inv s) : stuckReason s = none := by
  simp only [stuckReason, guard_none, and_true]
  refine ⟨?_, ?_, ?_, ?_, ?_, ?_, ?_, ?_, ?_, ?_, ?_, ?_, ?_⟩
  · exact Nat.not_lt.mpr h.fillRange
  · exact fun e => e.2 (h.fullBlock.mpr e.1)
  · exact fun e => h.padding e.1 e.2
  · exact fun e => h.markFirst (by rw [e.1]; rfl) e.2
  · exact fun e => by simp [h.fullBlock.mp e.2] at e
  · exact fun e => e.2 (h.roundIndex e.1)
  · exact fun e => e.2 (h.noPadding e.1)
  · exact fun e => e.2 (h.finished e.1).1
  · exact fun e => e.2 (h.finished e.1).2
  · exact fun e => Nat.not_lt.mpr (h.lengthField e.1 e.2.1).1 e.2.2
  · exact fun e => e.2 (h.fillOfLength e.1)
  · intro e
    apply e
    cases ho : s.ovf
    · have : s.phase ≠ .error := fun n => by simp [h.overflow.mpr n] at ho
      simp [this]
    · simp [h.overflow.mp ho]
  · exact fun e => e.2 (h.errorLength (h.overflow.mpr e.1))

end Sys2Proof.Machine
end

