-- ==== Sys2Proof/Laws/Effect.lean ====
section
/-! SUPPORT. Everything one step can do, said once as a list of cases (00_scope.md R12, 30_encoding.md R70): each case names what
selected it and the state it leaves. A statement about every step is a case analysis over it. -/

namespace Sys2Proof.Machine

/-- The command a step accepts, taken apart (R70, R71). -/
theorem acceptedNow_some {s : State} {i : Instr} (h : acceptedNow s = some i) :
    s.pins.rst = false ∧ rdy s = true ∧ s.pins.cv = true ∧ decodeCmd s.pins.cmd = i := by
  unfold acceptedNow at h
  split at h
  · next hc => exact ⟨hc.1, hc.2.1, hc.2.2, by simpa using h⟩
  · cases h

theorem acceptedNow_of {s : State} (h1 : s.pins.rst = false) (h2 : rdy s = true) (h3 : s.pins.cv = true) :
    acceptedNow s = some (decodeCmd s.pins.cmd) := if_pos ⟨h1, h2, h3⟩

/-- No command is accepted while the core is busy (R333). -/
theorem acceptedNow_busy {s : State} (h : rdy s = false) : acceptedNow s = none := by simp [acceptedNow, h]

theorem acceptedNow_reset {s : State} (h : s.pins.rst = true) : acceptedNow s = none := by simp [acceptedNow, h]

theorem acceptedNow_quiet {s : State} (h : s.pins.cv = false) : acceptedNow s = none := by simp [acceptedNow, h]

/-- A command word decodes to one of the four commands (R72). -/
theorem decodeCmd_cases (w : BitVec 10) :
    decodeCmd w = .nop ∨ decodeCmd w = .init ∨ (∃ b, decodeCmd w = .data b) ∨ decodeCmd w = .final := by
  unfold decodeCmd
  split <;> simp

/-- Each round is one instance of the template, the same for every state (R144). -/
theorem exec_round (i : BitVec 6) :
    ∃ f g k n, ∀ s, exec (roundInstr i) s = if i = 63#6 then lastRoundOp f g k n s else roundOp f g k n (i + 1#6) s := by
  obtain ⟨i⟩ := i
  fin_cases i <;> exact ⟨_, _, _, _, fun _ => rfl⟩

/-- The cases of a step of `s`, each with the state it leaves; `u` is `s` with this step's pins taken off the list. -/
inductive StepEffect (s u : State) : State → Prop
  | reset (hr : s.pins.rst = true) : StepEffect s u (resetCore u)
  | idle (hr : s.pins.rst = false) (hd : rdy s = true) (hc : s.pins.cv = false) : StepEffect s u u
  | nop (ha : acceptedNow s = some .nop) : StepEffect s u u
  | init (ha : acceptedNow s = some .init) : StepEffect s u (opened u)
  | dataProtocol (b : Byte) (ha : acceptedNow s = some (.data b)) (hp : s.phase ≠ .absorb) :
      StepEffect s u (raise .protocol u)
  | dataOverflow (b : Byte) (ha : acceptedNow s = some (.data b)) (hp : s.phase = .absorb) (hl : s.len = Config.maxLen) :
      StepEffect s u (raise .overflow u)
  | data (b : Byte) (ha : acceptedNow s = some (.data b)) (hp : s.phase = .absorb) (hl : s.len ≠ Config.maxLen)
      (hf : s.fill.toNat ≤ 63) : StepEffect s u (pushed b .absorb { u with len := s.len + 1#61 })
  | finalProtocol (ha : acceptedNow s = some .final) (hp : s.phase ≠ .absorb) : StepEffect s u (raise .protocol u)
  | final (ha : acceptedNow s = some .final) (hp : s.phase = .absorb) :
      StepEffect s u { u with padst := .p80, phase := .pad }
  | pad80 (hr : s.pins.rst = false) (hp : s.phase = .pad) (hq : s.padst = .p80) (hf : s.fill.toNat ≤ 63) :
      StepEffect s u (pushed 0x80#8 .pad { u with padst := .pz })
  | padz (hr : s.pins.rst = false) (hp : s.phase = .pad) (hq : s.padst = .pz) (hz : s.fill ≠ 56#7)
      (hf : s.fill.toNat ≤ 63) : StepEffect s u (pushed 0x00#8 .pad u)
  | padsw (hr : s.pins.rst = false) (hp : s.phase = .pad) (hq : s.padst = .pz) (hz : s.fill = 56#7) :
      StepEffect s u { u with padst := .pl }
  | padlen (hr : s.pins.rst = false) (hp : s.phase = .pad) (hq : s.padst = .pl) (hl : 56 ≤ s.fill.toNat)
      (hf : s.fill.toNat ≤ 63) : StepEffect s u (pushed (lengthByte s (s.fill.toNat - 56)) .pad u)
  | load (hr : s.pins.rst = false) (hp : s.phase = .load) (hf : s.fill = 64#7) :
      StepEffect s u { u with w := s.h, rnd := 0#6, phase := .round }
  | round (hr : s.pins.rst = false) (hp : s.phase = .round) (hf : s.fill = 64#7) (hi : s.rnd ≠ 63#6)
      (f : Word → Word → Word → Word) (g : Fin 16) (k : Word) (n : Nat)
      (he : ∀ v, exec (roundInstr s.rnd) v = roundOp f g k n (s.rnd + 1#6) v) :
      StepEffect s u { u with w := mix f k n s.w (blockWord s.buf g), rnd := s.rnd + 1#6 }
  | lastRound (hr : s.pins.rst = false) (hp : s.phase = .round) (hf : s.fill = 64#7) (hi : s.rnd = 63#6)
      (f : Word → Word → Word → Word) (g : Fin 16) (k : Word) (n : Nat)
      (he : ∀ v, exec (roundInstr s.rnd) v = lastRoundOp f g k n v) :
      StepEffect s u { u with w := mix f k n s.w (blockWord s.buf g), phase := .addbk, rnd := 0#6 }
  | addbkAbsorb (hr : s.pins.rst = false) (hp : s.phase = .addbk) (hq : s.padst = .none) (hf : s.fill = 64#7) :
      StepEffect s u (addedBack .absorb u)
  | addbkPad (hr : s.pins.rst = false) (hp : s.phase = .addbk) (hq : s.padst = .pz) (hf : s.fill = 64#7) :
      StepEffect s u (addedBack .pad u)
  | addbkDone (hr : s.pins.rst = false) (hp : s.phase = .addbk) (hq : s.padst = .pl) (hf : s.fill = 64#7) :
      StepEffect s u (addedBack .done u)

/-- Everything an accepted command can do (R105 to R108). -/
theorem command_effect {s t : State} {i : Instr} (ha : acceptedNow s = some i) (hx : exec i s.tick = .next t) :
    StepEffect s s.tick t := by
  obtain ⟨-, -, -, hd⟩ := acceptedNow_some ha
  obtain h | h | ⟨b, h⟩ | h := decodeCmd_cases s.pins.cmd <;> (rw [h] at hd; subst hd)
  · cases hx; exact .nop ha
  · cases hx; exact .init ha
  · obtain ⟨hp, rfl⟩ | ⟨hp, hl, rfl⟩ | ⟨hp, hl, hf, rfl⟩ := execData_next hx
    · exact .dataProtocol b ha hp
    · exact .dataOverflow b ha hp hl
    · exact .data b ha hp hl hf
  · obtain ⟨hp, rfl⟩ | ⟨hp, rfl⟩ := execFinal_next hx
    · exact .finalProtocol ha hp
    · exact .final ha hp

/-- Everything the micro-operation of a busy step can do (R75, R109 to R112, R124, R144, R145). -/
theorem micro_effect {s t : State} {i : Instr} (hr : s.pins.rst = false) (hd : decodeUsel (usel s) = .ok i)
    (hx : exec i s.tick = .next t) : StepEffect s s.tick t := by
  rw [decodeUsel_usel] at hd
  cases hp : s.phase <;> simp only [hp] at hd
  case pad =>
    cases hq : s.padst <;> simp only [hq] at hd
    · cases hd
    · cases hd; obtain ⟨hf, rfl⟩ := execPad80_next hx; exact .pad80 hr hp hq hf
    · split at hd
      · next hz => cases hd; cases hx; exact .padsw hr hp hq hz
      · next hz => cases hd; obtain ⟨hf, rfl⟩ := execPadz_next hx; exact .padz hr hp hq hz hf
    · cases hd; obtain ⟨hl, hf, rfl⟩ := execPadlen_next hx; exact .padlen hr hp hq hl hf
  case load => cases hd; obtain ⟨hf, rfl⟩ := execLoad_next hx; exact .load hr hp hf
  case round =>
    have hi : i = roundInstr s.rnd := by cases hd; rfl
    subst hi
    obtain ⟨f, g, k, n, he⟩ := exec_round s.rnd
    by_cases h63 : s.rnd = 63#6
    · simp only [h63, if_true] at he
      rw [h63, he] at hx
      obtain ⟨hf, rfl⟩ := lastRoundOp_next hx
      exact .lastRound hr hp hf h63 f g k n (by rw [h63]; exact he)
    · simp only [h63, if_false] at he
      rw [he] at hx
      obtain ⟨hf, rfl⟩ := roundOp_next hx
      exact .round hr hp hf h63 f g k n he
  case addbk =>
    cases hd
    obtain ⟨hf, ⟨hq, rfl⟩ | ⟨hq, rfl⟩ | ⟨hq, rfl⟩⟩ := execAddbk_next hx
    · exact .addbkAbsorb hr hp hq hf
    · exact .addbkPad hr hp hq hf
    · exact .addbkDone hr hp hq hf
  all_goals cases hd

/-- Everything a step can do (R12, R70). -/
theorem step_effect {s t : State} (h : step s = .next t) : StepEffect s s.tick t := by
  obtain ⟨hr, rfl⟩ | ⟨hr, -, hd, hc, rfl⟩ | ⟨hr, -, hd, hc, hx⟩ | ⟨i, hr, -, -, hd, hx⟩ := step_cases h
  · exact .reset hr
  · exact .idle hr hd hc
  · exact command_effect (acceptedNow_of hr hd hc) hx
  · exact micro_effect hr hd hx

end Sys2Proof.Machine
end

