-- ==== Sys2Proof/Laws/PerInstr.lean ====
section
/-! SUPPORT. Statements made per instruction, about the instruction as syntax: one lemma per constructor of Instr. -/

namespace Sys2Proof.Laws.MatchMask

/-- The canonical word of an operation lies under its row of R72 or R75: masked, it is the row's match, and the operand lies
outside the mask. -/
def Statement (i : Instr) : Prop := i.wf = true ∧ encode i &&& i.mask = i.pattern ∧ i.operandBits &&& i.mask = 0#12

theorem nop : Statement .nop := ⟨rfl, rfl, rfl⟩
theorem init : Statement .init := ⟨rfl, rfl, rfl⟩
theorem data (b : Byte) : Statement (.data b) := by
  refine ⟨rfl, ?_, ?_⟩ <;> revert b <;> decide
theorem final : Statement .final := ⟨rfl, rfl, rfl⟩
theorem pad80 : Statement .pad80 := ⟨rfl, rfl, rfl⟩
theorem padz : Statement .padz := ⟨rfl, rfl, rfl⟩
theorem padsw : Statement .padsw := ⟨rfl, rfl, rfl⟩
theorem padlen : Statement .padlen := ⟨rfl, rfl, rfl⟩
theorem load : Statement .load := ⟨rfl, rfl, rfl⟩
theorem rnd00 : Statement .rnd00 := ⟨rfl, rfl, rfl⟩
theorem rnd01 : Statement .rnd01 := ⟨rfl, rfl, rfl⟩
theorem rnd02 : Statement .rnd02 := ⟨rfl, rfl, rfl⟩
theorem rnd03 : Statement .rnd03 := ⟨rfl, rfl, rfl⟩
theorem rnd04 : Statement .rnd04 := ⟨rfl, rfl, rfl⟩
theorem rnd05 : Statement .rnd05 := ⟨rfl, rfl, rfl⟩
theorem rnd06 : Statement .rnd06 := ⟨rfl, rfl, rfl⟩
theorem rnd07 : Statement .rnd07 := ⟨rfl, rfl, rfl⟩
theorem rnd08 : Statement .rnd08 := ⟨rfl, rfl, rfl⟩
theorem rnd09 : Statement .rnd09 := ⟨rfl, rfl, rfl⟩
theorem rnd10 : Statement .rnd10 := ⟨rfl, rfl, rfl⟩
theorem rnd11 : Statement .rnd11 := ⟨rfl, rfl, rfl⟩
theorem rnd12 : Statement .rnd12 := ⟨rfl, rfl, rfl⟩
theorem rnd13 : Statement .rnd13 := ⟨rfl, rfl, rfl⟩
theorem rnd14 : Statement .rnd14 := ⟨rfl, rfl, rfl⟩
theorem rnd15 : Statement .rnd15 := ⟨rfl, rfl, rfl⟩
theorem rnd16 : Statement .rnd16 := ⟨rfl, rfl, rfl⟩
theorem rnd17 : Statement .rnd17 := ⟨rfl, rfl, rfl⟩
theorem rnd18 : Statement .rnd18 := ⟨rfl, rfl, rfl⟩
theorem rnd19 : Statement .rnd19 := ⟨rfl, rfl, rfl⟩
theorem rnd20 : Statement .rnd20 := ⟨rfl, rfl, rfl⟩
theorem rnd21 : Statement .rnd21 := ⟨rfl, rfl, rfl⟩
theorem rnd22 : Statement .rnd22 := ⟨rfl, rfl, rfl⟩
theorem rnd23 : Statement .rnd23 := ⟨rfl, rfl, rfl⟩
theorem rnd24 : Statement .rnd24 := ⟨rfl, rfl, rfl⟩
theorem rnd25 : Statement .rnd25 := ⟨rfl, rfl, rfl⟩
theorem rnd26 : Statement .rnd26 := ⟨rfl, rfl, rfl⟩
theorem rnd27 : Statement .rnd27 := ⟨rfl, rfl, rfl⟩
theorem rnd28 : Statement .rnd28 := ⟨rfl, rfl, rfl⟩
theorem rnd29 : Statement .rnd29 := ⟨rfl, rfl, rfl⟩
theorem rnd30 : Statement .rnd30 := ⟨rfl, rfl, rfl⟩
theorem rnd31 : Statement .rnd31 := ⟨rfl, rfl, rfl⟩
theorem rnd32 : Statement .rnd32 := ⟨rfl, rfl, rfl⟩
theorem rnd33 : Statement .rnd33 := ⟨rfl, rfl, rfl⟩
theorem rnd34 : Statement .rnd34 := ⟨rfl, rfl, rfl⟩
theorem rnd35 : Statement .rnd35 := ⟨rfl, rfl, rfl⟩
theorem rnd36 : Statement .rnd36 := ⟨rfl, rfl, rfl⟩
theorem rnd37 : Statement .rnd37 := ⟨rfl, rfl, rfl⟩
theorem rnd38 : Statement .rnd38 := ⟨rfl, rfl, rfl⟩
theorem rnd39 : Statement .rnd39 := ⟨rfl, rfl, rfl⟩
theorem rnd40 : Statement .rnd40 := ⟨rfl, rfl, rfl⟩
theorem rnd41 : Statement .rnd41 := ⟨rfl, rfl, rfl⟩
theorem rnd42 : Statement .rnd42 := ⟨rfl, rfl, rfl⟩
theorem rnd43 : Statement .rnd43 := ⟨rfl, rfl, rfl⟩
theorem rnd44 : Statement .rnd44 := ⟨rfl, rfl, rfl⟩
theorem rnd45 : Statement .rnd45 := ⟨rfl, rfl, rfl⟩
theorem rnd46 : Statement .rnd46 := ⟨rfl, rfl, rfl⟩
theorem rnd47 : Statement .rnd47 := ⟨rfl, rfl, rfl⟩
theorem rnd48 : Statement .rnd48 := ⟨rfl, rfl, rfl⟩
theorem rnd49 : Statement .rnd49 := ⟨rfl, rfl, rfl⟩
theorem rnd50 : Statement .rnd50 := ⟨rfl, rfl, rfl⟩
theorem rnd51 : Statement .rnd51 := ⟨rfl, rfl, rfl⟩
theorem rnd52 : Statement .rnd52 := ⟨rfl, rfl, rfl⟩
theorem rnd53 : Statement .rnd53 := ⟨rfl, rfl, rfl⟩
theorem rnd54 : Statement .rnd54 := ⟨rfl, rfl, rfl⟩
theorem rnd55 : Statement .rnd55 := ⟨rfl, rfl, rfl⟩
theorem rnd56 : Statement .rnd56 := ⟨rfl, rfl, rfl⟩
theorem rnd57 : Statement .rnd57 := ⟨rfl, rfl, rfl⟩
theorem rnd58 : Statement .rnd58 := ⟨rfl, rfl, rfl⟩
theorem rnd59 : Statement .rnd59 := ⟨rfl, rfl, rfl⟩
theorem rnd60 : Statement .rnd60 := ⟨rfl, rfl, rfl⟩
theorem rnd61 : Statement .rnd61 := ⟨rfl, rfl, rfl⟩
theorem rnd62 : Statement .rnd62 := ⟨rfl, rfl, rfl⟩
theorem rnd63 : Statement .rnd63 := ⟨rfl, rfl, rfl⟩
theorem addbk : Statement .addbk := ⟨rfl, rfl, rfl⟩

end Sys2Proof.Laws.MatchMask
end

