-- ==== Sys2Proof/Laws/Reference.lean ====
section
/-! SUPPORT. What `block` and `chainBlocks` can answer (42_block_scheduler.md R120, 43_compression_core.md R143). -/

namespace Sys2Proof.Machine

/-- The domain of `block` and what it answers there, byte by byte. -/
theorem block_some {p : List Byte} {n : Nat} {q : Block} (h : block p n = some q) :
    p.length % 64 = 0 ∧ n < p.length / 64 ∧ ∀ k (hk : k < 64), p[64 * n + k]? = some q[k] := by
  unfold block at h
  split at h
  · next hd =>
    obtain rfl := Option.some.inj h
    refine ⟨hd.1, hd.2, fun k hk => ?_⟩
    rw [Vector.getElem_ofFn]
    exact List.getElem?_eq_getElem (by omega)
  · cases h

theorem block_inside {p : List Byte} {n : Nat} (h1 : p.length % 64 = 0) (h2 : n < p.length / 64) :
    ∃ q, block p n = some q := by
  simp [block, h1, h2]

theorem block_outside {p : List Byte} {n : Nat} (h : ¬ (p.length % 64 = 0 ∧ n < p.length / 64)) : block p n = none :=
  dif_neg h

@[simp] theorem chainBlocks_zero (p : List Byte) : chainBlocks p 0 = some Quad.iv := rfl

/-- One block more: the state before it, the block, and the compression of the two. -/
theorem chainBlocks_succ {p : List Byte} {n : Nat} {t : Quad} :
    chainBlocks p (n + 1) = some t ↔
      ∃ h q, chainBlocks p n = some h ∧ block p n = some q ∧ t = compress h (decodeBlock q) := by
  cases h : chainBlocks p n <;> cases q : block p n <;> simp [chainBlocks, h, q, eq_comm]

end Sys2Proof.Machine
end

