-- ==== Sys2Proof/Laws/Run.lean ====
section
/-! SUPPORT. Runs of several steps: a run taken apart at its first step and cut in two, and the host's idle steps as a run. -/

namespace Sys2Proof.Machine

@[simp] theorem run_zero (s : State) : run 0 s = .next s := rfl

/-- `Host.Core.run` of any machine at a step that answers a state, and at one that stops. -/
theorem core_run_next {M : Host.Core} {s t : M.State} (n : Nat) (h : M.step s = .next t) : M.run (n + 1) s = M.run n t := by
  simp only [Host.Core.run, h]

theorem core_run_fault {M : Host.Core} {s : M.State} {f : M.Fault} (n : Nat) (h : M.step s = .fault f) :
    M.run (n + 1) s = .fault f := by
  simp only [Host.Core.run, h]

theorem core_run_refused {M : Host.Core} {s : M.State} {r : M.Refusal} (n : Nat) (h : M.step s = .refused r) :
    M.run (n + 1) s = .refused r := by
  simp only [Host.Core.run, h]

/-- A run of `n + 1` steps, by what its first step answers. -/
theorem run_succ_next {s t : State} (n : Nat) (h : step s = .next t) : run (n + 1) s = run n t :=
  core_run_next (M := Sys2Proof.core) n h

theorem run_succ_fault {s : State} {f : Fault} (n : Nat) (h : step s = .fault f) : run (n + 1) s = .fault f :=
  core_run_fault (M := Sys2Proof.core) n h

theorem run_succ_refused {s : State} {r : Refusal} (n : Nat) (h : step s = .refused r) : run (n + 1) s = .refused r :=
  core_run_refused (M := Sys2Proof.core) n h

/-- A run of `n + 1` steps that answers a state has a first step. -/
theorem run_succ_inv {n : Nat} {s u : State} (h : run (n + 1) s = .next u) : ∃ t, step s = .next t ∧ run n t = .next u := by
  cases hs : step s with
  | next t => exact ⟨t, rfl, (run_succ_next n hs).symm.trans h⟩
  | fault f => cases (run_succ_fault n hs).symm.trans h
  | refused r => cases (run_succ_refused n hs).symm.trans h

/-- A run cut in two. -/
theorem run_add {m : Nat} {s t : State} (n : Nat) (h : run m s = .next t) : run (m + n) s = run n t := by
  induction m generalizing s with
  | zero => cases h; rw [Nat.zero_add]
  | succ m ih =>
    obtain ⟨v, hv, hr⟩ := run_succ_inv h
    rw [Nat.succ_add, run_succ_next _ hv, ih hr]

/-- With no pins to come, presenting nothing is what the step does of itself (log entry 1). -/
theorem stepWith_quiet {s : State} (h : s.inputs = []) : stepWith Pins.quiet s = step s := by
  cases s
  cases h
  rfl

end Sys2Proof.Machine
end

