-- ==== Sys2Proof/Tests/Slice0.lean ====
section
/-! SUPPORT. The model's own tests. Every expected value is taken from spec/ (95_test_vectors.md, the examples in the rules), or
worked out by hand from a rule; each is one step on a small state. At the end, for every obligation with hypotheses, a
witness: a concrete state and operands that meet them, at the boundaries where clauses meet. -/

open Sys2Proof Sys2Proof.Machine

namespace Sys2Proof.Tests

/-- The state an operation answers, if it answers one. -/
def next? : Result → Option State
  | .next s => some s
  | .fault _ | .refused _ => none

/-- The fault an operation answers, if it answers one. -/
def fault? : Result → Option Fault
  | .fault f => some f
  | .next _ | .refused _ => none

/-- A field of the state an operation answers. -/
def get {α : Type} (f : State → α) (r : Result) : Option α := (next? r).map f

/-- A state with the given sequencer and counters, else as after reset. -/
def st (ph : Phase) (q : PadSt) (fill : BitVec 7) (len : BitVec 61) : State :=
  { State.reset with phase := ph, padst := q, fill := fill, len := len }

/-- A message of `n` bytes is open. -/
def open_ (fill : BitVec 7) (len : BitVec 61) : State := st .absorb .none fill len

/-- A full block waits for `LOAD`. -/
def full : State := st .load .none 64#7 64#61

/-- A digest is ready, that of the empty message (95_test_vectors.md section 1). -/
def ready : State := { st .done .pl 0#7 0#61 with h := ⟨0xD98C1DD4#32, 0x04B2008F#32, 0x980980E9#32, 0x7E42F8EC#32⟩ }

/-- The message overflowed (R301). -/
def overflowed : State := { st .error .none 63#7 Config.maxLen with ovf := true }

/-- The block of the empty message: `X[0] = 00000080`, every other word 0 (95_test_vectors.md section 4). -/
def emptyBlock : Memory := [(0, 0x80#8)]

/-- The block of "abc": `X[0] = 80636261`, `X[14] = 00000018` (95_test_vectors.md section 4). -/
def abcBlock : Memory := [(0, 0x61#8), (1, 0x62#8), (2, 0x63#8), (3, 0x80#8), (56, 0x18#8)]

/-- The pins of one step with `RST = 1`. -/
def resetPins : Pins := ⟨true, false, 0#10⟩

/- Well-formedness: each check refuses an ill-formed term (R80, R81), and takes the nearest good one. -/
theorem test_wf_hex : (Line.data (.hex 256)).wf = false ∧ (Line.data (.hex 255)).wf = true := by decide
theorem test_wf_dec : (Line.data (.dec 256)).wf = false ∧ (Line.data (.dec 255)).wf = true := by decide
theorem test_wf_chr : (Line.data (.chr (Char.ofNat 127))).wf = false ∧ (Line.data (.chr (Char.ofNat 31))).wf = false ∧
  (Line.data (.chr '~')).wf = true ∧ (Line.data (.chr ' ')).wf = true := by decide
theorem test_wf_msg : (Line.msg ['a', Char.ofNat 0x80]).wf = false ∧ (Line.msg ['a', Char.ofNat 0x7F]).wf = true := by decide
theorem test_wf_hash : (Line.hash [Char.ofNat 0xE9]).wf = false ∧ (Line.hash []).wf = true := by decide

/- Decoding: words written out bit by bit from R72, R73 (op, byte) and R74, R75 (PHASE, PADST, Z, RND). -/
theorem test_decode_nop : decode 0b00_00_00000000#12 = .ok .nop ∧ decode 0b00_00_10100101#12 = .ok .nop := by decide
theorem test_decode_init : decode 0b00_01_00000000#12 = .ok .init := by decide
theorem test_decode_data : decode 0b00_10_01100001#12 = .ok (.data 0x61#8) ∧ decode 0b00_10_00000000#12 = .ok (.data 0x00#8) := by decide
theorem test_decode_final : decode 0b00_11_00000000#12 = .ok .final := by decide
theorem test_decode_pad80 : decode 0b010_01_0_000000#12 = .ok .pad80 ∧ decode 0b010_01_1_000001#12 = .ok .pad80 := by decide
theorem test_decode_padz : decode 0b010_10_0_000000#12 = .ok .padz := by decide
theorem test_decode_padsw : decode 0b010_10_1_000000#12 = .ok .padsw := by decide
theorem test_decode_padlen : decode 0b010_11_1_000000#12 = .ok .padlen ∧ decode 0b010_11_0_000000#12 = .ok .padlen := by decide
theorem test_decode_load : decode 0b011_00_0_000000#12 = .ok .load ∧ decode 0b011_11_0_000000#12 = .ok .load := by decide
theorem test_decode_rounds : decode 0b100_00_0_000000#12 = .ok .rnd00 ∧ decode 0b100_10_0_001111#12 = .ok .rnd15 ∧
  decode 0b100_00_0_010000#12 = .ok .rnd16 ∧ decode 0b100_11_0_101010#12 = .ok .rnd42 ∧ decode 0b100_00_1_111111#12 = .ok .rnd63 := by decide
theorem test_decode_addbk : decode 0b101_00_0_000000#12 = .ok .addbk ∧ decode 0b101_11_0_000000#12 = .ok .addbk := by decide
theorem test_decode_rejects : decode 0b010_00_0_000000#12 = .error .padWithoutFinal ∧ decode 0b110_11_0_000000#12 = .error .readyPhase ∧
  decode 0b111_00_0_000000#12 = .error .readyPhase ∧ decodeUsel 0b000_00_0_000000#12 = .error .readyPhase := by decide
/-- The canonical words of R73 and R80; a round of R75. -/
theorem test_encode : encode .nop = 0x000#12 ∧ encode .init = 0x100#12 ∧ encode (.data 0x62#8) = 0x262#12 ∧ encode .final = 0x300#12 ∧
  encode .rnd63 = 0x83F#12 := by decide
/-- The word of the host numbering: 10 bits for CMD, 12 for USEL. -/
theorem test_table_word : decodeTableWord 10 0x261 = some (.data 0x61#8) ∧ decodeTableWord 12 0x540 = some .padsw ∧ decodeTableWord 16 0x1540 = none := by decide

/- The primitives (95_test_vectors.md section 3). -/
theorem test_add32 : add32 0xFFFFFFFF#32 1#32 = 0#32 ∧ add32 0x80000000#32 0x80000000#32 = 0#32 ∧
  add32 (add32 (add32 0x67452301#32 0x98BADCFE#32) 0xD76AA478#32) 0x80#32 = 0xD76AA4F7#32 := by decide
theorem test_rotl32 : rotl32 0x80000001#32 1 = 3#32 ∧ rotl32 1#32 31 = 0x80000000#32 ∧ rotl32 0x12345678#32 7 = 0x1A2B3C09#32 ∧
  rotl32 0xD76AA4F7#32 7 = 0xB5527BEB#32 := by decide
theorem test_nonlinear : f0 0xAAAAAAAA#32 0xCCCCCCCC#32 0xF0F0F0F0#32 = 0xD8D8D8D8#32 ∧ f1 0xAAAAAAAA#32 0xCCCCCCCC#32 0xF0F0F0F0#32 = 0xACACACAC#32 ∧
  f2 0xAAAAAAAA#32 0xCCCCCCCC#32 0xF0F0F0F0#32 = 0x96969696#32 ∧ f3 0xAAAAAAAA#32 0xCCCCCCCC#32 0xF0F0F0F0#32 = 0x63636363#32 := by decide
theorem test_word_index : [0, 15, 16, 17, 31, 32, 33, 47, 48, 49, 63].map wordIndex = [0, 15, 1, 6, 12, 5, 8, 2, 0, 7, 9] := by decide
theorem test_shift_amount : [0, 3, 4, 16, 19, 32, 35, 48, 51, 63].map shiftAmount = [7, 22, 7, 5, 20, 4, 23, 6, 21, 21] := by decide
theorem test_block_word : blockWord abcBlock 0 = 0x80636261#32 ∧ blockWord abcBlock 14 = 0x18#32 ∧ blockWord abcBlock 1 = 0#32 := by decide
theorem test_length_bytes : (List.range 8).map (lengthByte (open_ 3#7 3#61)) = [0x18#8, 0#8, 0#8, 0#8, 0#8, 0#8, 0#8, 0#8] ∧
  (List.range 8).map (lengthByte (open_ 63#7 Config.maxLen)) = [0xF8#8, 0xFF#8, 0xFF#8, 0xFF#8, 0xFF#8, 0xFF#8, 0xFF#8, 0xFF#8] := by decide
theorem test_digest : digest ⟨0xD98C1DD4#32, 0x04B2008F#32, 0x980980E9#32, 0x7E42F8EC#32⟩ =
  [0xD4#8, 0x1D#8, 0x8C#8, 0xD9#8, 0x8F#8, 0x00#8, 0xB2#8, 0x04#8, 0xE9#8, 0x80#8, 0x09#8, 0x98#8, 0xEC#8, 0xF8#8, 0x42#8, 0x7E#8] := by decide
theorem test_hex : hex [0x00#8, 0x0A#8, 0xF0#8, 0xFF#8] = [0x30#8, 0x30#8, 0x30#8, 0x61#8, 0x66#8, 0x30#8, 0x66#8, 0x66#8] := by decide
theorem test_digest_port : digestPort ready = 0x7E42F8EC980980E904B2008FD98C1DD4#128 ∧ digestPort State.reset = 0#128 ∧ hexPort State.reset = 0#256 := by decide
/-- "d41d...427e": the first two characters and the last (95_test_vectors.md section 1). -/
theorem test_hex_port : (hexPort ready).extractLsb' 0 8 = 0x64#8 ∧ (hexPort ready).extractLsb' 8 8 = 0x34#8 ∧ (hexPort ready).extractLsb' 248 8 = 0x65#8 := by decide

/- Padding (95_test_vectors.md sections 2 and 4). -/
theorem test_zero_count : [0, 1, 3, 14, 43, 55, 56, 57, 63, 64, 119, 120].map zeroCount = [55, 54, 52, 41, 12, 0, 63, 62, 56, 55, 0, 63] := by decide
theorem test_block_count : [0, 55, 56, 64, 119, 120].map blockCount = [1, 1, 2, 2, 2, 3] ∧ [0, 55, 56, 64, 119, 120].map transactionSteps = [133, 133, 263, 263, 263, 393] := by decide
theorem test_pad_abc : (paddedBytes [0x61#8, 0x62#8, 0x63#8]).take 5 = [0x61#8, 0x62#8, 0x63#8, 0x80#8, 0x00#8] ∧
  (paddedBytes [0x61#8, 0x62#8, 0x63#8]).drop 56 = [0x18#8, 0#8, 0#8, 0#8, 0#8, 0#8, 0#8, 0#8] := by decide
/-- The one block of 64 bytes; past it, and of 63 or 65 bytes, there is none (R120, R56). -/
theorem test_block : (block (List.replicate 64 0x61#8) 0).map Vector.toList = some (List.replicate 64 0x61#8) ∧ block (List.replicate 64 0x61#8) 1 = none ∧
  block (List.replicate 63 0x61#8) 0 = none ∧ block (List.replicate 65 0x61#8) 0 = none := by decide
/-- The words of pad("abc") (95_test_vectors.md section 4). -/
theorem test_decode : (block (paddedBytes [0x61#8, 0x62#8, 0x63#8]) 0).map (fun q => (decodeBlock q 0, decodeBlock q 1, decodeBlock q 14)) =
  some (0x80636261#32, 0#32, 0x18#32) := by decide
/-- A partial block is never compressed (R56, 93 U1). -/
theorem test_no_partial_compression : chainBlocks [0x80#8] 0 = some Quad.iv ∧ chainBlocks [0x80#8] 1 = none := by decide

/- The commands (R105 to R108; 95_test_vectors.md section 7). -/
theorem test_nop : next? (exec .nop overflowed) = some overflowed := by decide
theorem test_init : (get status (exec .init { ready with perr := true }), get (·.h) (exec .init ready), get digestPort (exec .init ready)) =
  (some 0x11#8, some Quad.iv, some 0#128) := by decide
theorem test_init_error : (get status (exec .init overflowed), get (·.len) (exec .init overflowed), get (·.fill) (exec .init overflowed)) =
  (some 0x11#8, some 0#61, some 0#7) := by decide
theorem test_data_last : (fun r => (get (·.len) r, get (fun t => Memory.read t.buf 62) r, get (·.fill) r, get status r))
    (exec (.data 0xFF#8) (open_ 62#7 0x1FFFFFFFFFFFFFFE#61)) =
  (some Config.maxLen, some 0xFF#8, some 63#7, some 0x11#8) := by decide
theorem test_data_overflow : get status (exec (.data 0x00#8) (open_ 63#7 Config.maxLen)) = some 0x75#8 ∧
  get (·.len) (exec (.data 0x00#8) (open_ 63#7 Config.maxLen)) = some Config.maxLen ∧
  get (·.fill) (exec (.data 0x00#8) (open_ 63#7 Config.maxLen)) = some 63#7 ∧
  get digestPort (exec (.data 0x00#8) (open_ 63#7 Config.maxLen)) = some 0#128 := by decide
theorem test_data_protocol : get status (exec (.data 0x79#8) ready) = some 0x6B#8 ∧ get digestPort (exec (.data 0x79#8) ready) = some (digestPort ready) ∧
  next? (exec (.data 0x78#8) State.reset) = some { State.reset with perr := true } := by decide
theorem test_data_fills_block : get (·.phase) (exec (.data 0x61#8) (open_ 63#7 63#61)) = some .load ∧ get (·.fill) (exec (.data 0x61#8) (open_ 63#7 63#61)) = some 64#7 := by decide
theorem test_final : get (·.phase) (exec .final (open_ 3#7 3#61)) = some .pad ∧ get (·.padst) (exec .final (open_ 3#7 3#61)) = some .p80 := by decide
theorem test_final_protocol : get status (exec .final State.reset) = some 0x09#8 ∧ get status (exec .final overflowed) = some 0x7D#8 := by decide

/- The padding micro-operations (R109 to R112). -/
theorem test_pad80 : (fun r => (get (fun t => Memory.read t.buf 3) r, get (·.padst) r, get (·.fill) r, get (·.phase) r)) (exec .pad80 (st .pad .p80 3#7 3#61)) =
  (some 0x80#8, some .pz, some 4#7, some .pad) := by decide
theorem test_pad80_fills_block : get (·.phase) (exec .pad80 (st .pad .p80 63#7 63#61)) = some .load := by decide
/-- The stale byte of an earlier block is overwritten (R106: BUF keeps its values), and the entry goes. -/
theorem test_padz : get (fun t => Memory.read t.buf 4) (exec .padz { st .pad .pz 4#7 3#61 with buf := [(4, 0x55#8)] }) = some 0x00#8 ∧
  get (·.buf) (exec .padz { st .pad .pz 4#7 3#61 with buf := [(4, 0x55#8)] }) = some [] := by decide
theorem test_padsw : next? (exec .padsw (st .pad .pz 56#7 3#61)) = some (st .pad .pl 56#7 3#61) := by decide
/-- LEN = 3: the first length byte is 0x18; LEN = 56: the second is 0x01 (95_test_vectors.md sections 2 and 4). -/
theorem test_padlen : get (fun t => Memory.read t.buf 56) (exec .padlen (st .pad .pl 56#7 3#61)) = some 0x18#8 ∧
  get (fun t => Memory.read t.buf 57) (exec .padlen (st .pad .pl 57#7 56#61)) = some 0x01#8 := by decide

/- The compression: the full trace of 95_test_vectors.md section 5, each row one step from the registers of the row before. -/
theorem test_load : get (·.w) (exec .load { full with h := ⟨1#32, 2#32, 3#32, 4#32⟩ }) = some ⟨1#32, 2#32, 3#32, 4#32⟩ ∧ get (·.phase) (exec .load full) = some .round := by decide

/-- Round `i` on the registers `w`, with the block of the empty message. -/
def traced (i : Nat) (w : Quad) : Option Quad :=
  get (·.w) (exec (roundInstr (BitVec.ofNat 6 i)) { st .round .pl 64#7 0#61 with w := w, rnd := BitVec.ofNat 6 i, buf := emptyBlock })

/-- Rows 0 to 15 of the trace. -/
theorem test_trace_00 : traced 0 ⟨0x67452301#32, 0xEFCDAB89#32, 0x98BADCFE#32, 0x10325476#32⟩ = some ⟨0x10325476#32, 0xA5202774#32, 0xEFCDAB89#32, 0x98BADCFE#32⟩ ∧
  traced 1 ⟨0x10325476#32, 0xA5202774#32, 0xEFCDAB89#32, 0x98BADCFE#32⟩ = some ⟨0x98BADCFE#32, 0xF59592DD#32, 0xA5202774#32, 0xEFCDAB89#32⟩ ∧
  traced 2 ⟨0x98BADCFE#32, 0xF59592DD#32, 0xA5202774#32, 0xEFCDAB89#32⟩ = some ⟨0xEFCDAB89#32, 0xE7F06B23#32, 0xF59592DD#32, 0xA5202774#32⟩ ∧
  traced 3 ⟨0xEFCDAB89#32, 0xE7F06B23#32, 0xF59592DD#32, 0xA5202774#32⟩ = some ⟨0xA5202774#32, 0x1B163203#32, 0xE7F06B23#32, 0xF59592DD#32⟩ ∧
  traced 4 ⟨0xA5202774#32, 0x1B163203#32, 0xE7F06B23#32, 0xF59592DD#32⟩ = some ⟨0xF59592DD#32, 0x32033344#32, 0x1B163203#32, 0xE7F06B23#32⟩ ∧
  traced 5 ⟨0xF59592DD#32, 0x32033344#32, 0x1B163203#32, 0xE7F06B23#32⟩ = some ⟨0xE7F06B23#32, 0x2F35D494#32, 0x32033344#32, 0x1B163203#32⟩ ∧
  traced 6 ⟨0xE7F06B23#32, 0x2F35D494#32, 0x32033344#32, 0x1B163203#32⟩ = some ⟨0x1B163203#32, 0xF5B158DB#32, 0x2F35D494#32, 0x32033344#32⟩ ∧
  traced 7 ⟨0x1B163203#32, 0xF5B158DB#32, 0x2F35D494#32, 0x32033344#32⟩ = some ⟨0x32033344#32, 0x9BC13CE9#32, 0xF5B158DB#32, 0x2F35D494#32⟩ ∧
  traced 8 ⟨0x32033344#32, 0x9BC13CE9#32, 0xF5B158DB#32, 0x2F35D494#32⟩ = some ⟨0x2F35D494#32, 0x3893B991#32, 0x9BC13CE9#32, 0xF5B158DB#32⟩ ∧
  traced 9 ⟨0x2F35D494#32, 0x3893B991#32, 0x9BC13CE9#32, 0xF5B158DB#32⟩ = some ⟨0xF5B158DB#32, 0xFCE4A312#32, 0x3893B991#32, 0x9BC13CE9#32⟩ ∧
  traced 10 ⟨0xF5B158DB#32, 0xFCE4A312#32, 0x3893B991#32, 0x9BC13CE9#32⟩ = some ⟨0x9BC13CE9#32, 0xE1EF0576#32, 0xFCE4A312#32, 0x3893B991#32⟩ ∧
  traced 11 ⟨0x9BC13CE9#32, 0xE1EF0576#32, 0xFCE4A312#32, 0x3893B991#32⟩ = some ⟨0x3893B991#32, 0x70768A29#32, 0xE1EF0576#32, 0xFCE4A312#32⟩ ∧
  traced 12 ⟨0x3893B991#32, 0x70768A29#32, 0xE1EF0576#32, 0xFCE4A312#32⟩ = some ⟨0xFCE4A312#32, 0xF56C7CF1#32, 0x70768A29#32, 0xE1EF0576#32⟩ ∧
  traced 13 ⟨0xFCE4A312#32, 0xF56C7CF1#32, 0x70768A29#32, 0xE1EF0576#32⟩ = some ⟨0xE1EF0576#32, 0x374943A7#32, 0xF56C7CF1#32, 0x70768A29#32⟩ ∧
  traced 14 ⟨0xE1EF0576#32, 0x374943A7#32, 0xF56C7CF1#32, 0x70768A29#32⟩ = some ⟨0x70768A29#32, 0x5AA53F75#32, 0x374943A7#32, 0xF56C7CF1#32⟩ ∧
  traced 15 ⟨0x70768A29#32, 0x5AA53F75#32, 0x374943A7#32, 0xF56C7CF1#32⟩ = some ⟨0xF56C7CF1#32, 0xD6819C6A#32, 0x5AA53F75#32, 0x374943A7#32⟩ := by decide
/-- Rows 16 to 31 of the trace. -/
theorem test_trace_16 : traced 16 ⟨0xF56C7CF1#32, 0xD6819C6A#32, 0x5AA53F75#32, 0x374943A7#32⟩ = some ⟨0x374943A7#32, 0x1C7D7513#32, 0xD6819C6A#32, 0x5AA53F75#32⟩ ∧
  traced 17 ⟨0x374943A7#32, 0x1C7D7513#32, 0xD6819C6A#32, 0x5AA53F75#32⟩ = some ⟨0x5AA53F75#32, 0x7BD57A3A#32, 0x1C7D7513#32, 0xD6819C6A#32⟩ ∧
  traced 18 ⟨0x5AA53F75#32, 0x7BD57A3A#32, 0x1C7D7513#32, 0xD6819C6A#32⟩ = some ⟨0xD6819C6A#32, 0xC095F13A#32, 0x7BD57A3A#32, 0x1C7D7513#32⟩ ∧
  traced 19 ⟨0xD6819C6A#32, 0xC095F13A#32, 0x7BD57A3A#32, 0x1C7D7513#32⟩ = some ⟨0x1C7D7513#32, 0xBD782E17#32, 0xC095F13A#32, 0x7BD57A3A#32⟩ ∧
  traced 20 ⟨0x1C7D7513#32, 0xBD782E17#32, 0xC095F13A#32, 0x7BD57A3A#32⟩ = some ⟨0x7BD57A3A#32, 0x3D1E3E6C#32, 0xBD782E17#32, 0xC095F13A#32⟩ ∧
  traced 21 ⟨0x7BD57A3A#32, 0x3D1E3E6C#32, 0xBD782E17#32, 0xC095F13A#32⟩ = some ⟨0xC095F13A#32, 0x68B7B3E3#32, 0x3D1E3E6C#32, 0xBD782E17#32⟩ ∧
  traced 22 ⟨0xC095F13A#32, 0x68B7B3E3#32, 0x3D1E3E6C#32, 0xBD782E17#32⟩ = some ⟨0xBD782E17#32, 0xEB41643E#32, 0x68B7B3E3#32, 0x3D1E3E6C#32⟩ ∧
  traced 23 ⟨0xBD782E17#32, 0xEB41643E#32, 0x68B7B3E3#32, 0x3D1E3E6C#32⟩ = some ⟨0x3D1E3E6C#32, 0xE422531A#32, 0xEB41643E#32, 0x68B7B3E3#32⟩ ∧
  traced 24 ⟨0x3D1E3E6C#32, 0xE422531A#32, 0xEB41643E#32, 0x68B7B3E3#32⟩ = some ⟨0x68B7B3E3#32, 0x306EC122#32, 0xE422531A#32, 0xEB41643E#32⟩ ∧
  traced 25 ⟨0x68B7B3E3#32, 0x306EC122#32, 0xE422531A#32, 0xEB41643E#32⟩ = some ⟨0xEB41643E#32, 0xD28C77C2#32, 0x306EC122#32, 0xE422531A#32⟩ ∧
  traced 26 ⟨0xEB41643E#32, 0xD28C77C2#32, 0x306EC122#32, 0xE422531A#32⟩ = some ⟨0xE422531A#32, 0xA3C663DA#32, 0xD28C77C2#32, 0x306EC122#32⟩ ∧
  traced 27 ⟨0xE422531A#32, 0xA3C663DA#32, 0xD28C77C2#32, 0x306EC122#32⟩ = some ⟨0x306EC122#32, 0xA0572807#32, 0xA3C663DA#32, 0xD28C77C2#32⟩ ∧
  traced 28 ⟨0x306EC122#32, 0xA0572807#32, 0xA3C663DA#32, 0xD28C77C2#32⟩ = some ⟨0xD28C77C2#32, 0x13707036#32, 0xA0572807#32, 0xA3C663DA#32⟩ ∧
  traced 29 ⟨0xD28C77C2#32, 0x13707036#32, 0xA0572807#32, 0xA3C663DA#32⟩ = some ⟨0xA3C663DA#32, 0xAE7813DB#32, 0x13707036#32, 0xA0572807#32⟩ ∧
  traced 30 ⟨0xA3C663DA#32, 0xAE7813DB#32, 0x13707036#32, 0xA0572807#32⟩ = some ⟨0xA0572807#32, 0x1C31C384#32, 0xAE7813DB#32, 0x13707036#32⟩ ∧
  traced 31 ⟨0xA0572807#32, 0x1C31C384#32, 0xAE7813DB#32, 0x13707036#32⟩ = some ⟨0x13707036#32, 0xA2205F1F#32, 0x1C31C384#32, 0xAE7813DB#32⟩ := by decide
/-- Rows 32 to 47 of the trace. -/
theorem test_trace_32 : traced 32 ⟨0x13707036#32, 0xA2205F1F#32, 0x1C31C384#32, 0xAE7813DB#32⟩ = some ⟨0xAE7813DB#32, 0xDF63EAA1#32, 0xA2205F1F#32, 0x1C31C384#32⟩ ∧
  traced 33 ⟨0xAE7813DB#32, 0xDF63EAA1#32, 0xA2205F1F#32, 0x1C31C384#32⟩ = some ⟨0x1C31C384#32, 0xC3689F5B#32, 0xDF63EAA1#32, 0xA2205F1F#32⟩ ∧
  traced 34 ⟨0x1C31C384#32, 0xC3689F5B#32, 0xDF63EAA1#32, 0xA2205F1F#32⟩ = some ⟨0xA2205F1F#32, 0x12F3E755#32, 0xC3689F5B#32, 0xDF63EAA1#32⟩ ∧
  traced 35 ⟨0xA2205F1F#32, 0x12F3E755#32, 0xC3689F5B#32, 0xDF63EAA1#32⟩ = some ⟨0xDF63EAA1#32, 0x004B6669#32, 0x12F3E755#32, 0xC3689F5B#32⟩ ∧
  traced 36 ⟨0xDF63EAA1#32, 0x004B6669#32, 0x12F3E755#32, 0xC3689F5B#32⟩ = some ⟨0xC3689F5B#32, 0x5F7A9B2E#32, 0x004B6669#32, 0x12F3E755#32⟩ ∧
  traced 37 ⟨0xC3689F5B#32, 0x5F7A9B2E#32, 0x004B6669#32, 0x12F3E755#32⟩ = some ⟨0x12F3E755#32, 0xABC34E16#32, 0x5F7A9B2E#32, 0x004B6669#32⟩ ∧
  traced 38 ⟨0x12F3E755#32, 0xABC34E16#32, 0x5F7A9B2E#32, 0x004B6669#32⟩ = some ⟨0x004B6669#32, 0x91CA4CB7#32, 0xABC34E16#32, 0x5F7A9B2E#32⟩ ∧
  traced 39 ⟨0x004B6669#32, 0x91CA4CB7#32, 0xABC34E16#32, 0x5F7A9B2E#32⟩ = some ⟨0x5F7A9B2E#32, 0xC5DC8C15#32, 0x91CA4CB7#32, 0xABC34E16#32⟩ ∧
  traced 40 ⟨0x5F7A9B2E#32, 0xC5DC8C15#32, 0x91CA4CB7#32, 0xABC34E16#32⟩ = some ⟨0xABC34E16#32, 0x4497169D#32, 0xC5DC8C15#32, 0x91CA4CB7#32⟩ ∧
  traced 41 ⟨0xABC34E16#32, 0x4497169D#32, 0xC5DC8C15#32, 0x91CA4CB7#32⟩ = some ⟨0x91CA4CB7#32, 0x76FD93D4#32, 0x4497169D#32, 0xC5DC8C15#32⟩ ∧
  traced 42 ⟨0x91CA4CB7#32, 0x76FD93D4#32, 0x4497169D#32, 0xC5DC8C15#32⟩ = some ⟨0xC5DC8C15#32, 0xFD95F243#32, 0x76FD93D4#32, 0x4497169D#32⟩ ∧
  traced 43 ⟨0xC5DC8C15#32, 0xFD95F243#32, 0x76FD93D4#32, 0x4497169D#32⟩ = some ⟨0x4497169D#32, 0x0FE32453#32, 0xFD95F243#32, 0x76FD93D4#32⟩ ∧
  traced 44 ⟨0x4497169D#32, 0x0FE32453#32, 0xFD95F243#32, 0x76FD93D4#32⟩ = some ⟨0x76FD93D4#32, 0x3F55EDFD#32, 0x0FE32453#32, 0xFD95F243#32⟩ ∧
  traced 45 ⟨0x76FD93D4#32, 0x3F55EDFD#32, 0x0FE32453#32, 0xFD95F243#32⟩ = some ⟨0xFD95F243#32, 0x22A31F54#32, 0x3F55EDFD#32, 0x0FE32453#32⟩ ∧
  traced 46 ⟨0xFD95F243#32, 0x22A31F54#32, 0x3F55EDFD#32, 0x0FE32453#32⟩ = some ⟨0x0FE32453#32, 0x68D84EA2#32, 0x22A31F54#32, 0x3F55EDFD#32⟩ ∧
  traced 47 ⟨0x0FE32453#32, 0x68D84EA2#32, 0x22A31F54#32, 0x3F55EDFD#32⟩ = some ⟨0x3F55EDFD#32, 0xCA7D2DBD#32, 0x68D84EA2#32, 0x22A31F54#32⟩ := by decide
/-- Rows 48 to 63 of the trace. -/
theorem test_trace_48 : traced 48 ⟨0x3F55EDFD#32, 0xCA7D2DBD#32, 0x68D84EA2#32, 0x22A31F54#32⟩ = some ⟨0x22A31F54#32, 0x93AA2577#32, 0xCA7D2DBD#32, 0x68D84EA2#32⟩ ∧
  traced 49 ⟨0x22A31F54#32, 0x93AA2577#32, 0xCA7D2DBD#32, 0x68D84EA2#32⟩ = some ⟨0x68D84EA2#32, 0x1688DC85#32, 0x93AA2577#32, 0xCA7D2DBD#32⟩ ∧
  traced 50 ⟨0x68D84EA2#32, 0x1688DC85#32, 0x93AA2577#32, 0xCA7D2DBD#32⟩ = some ⟨0xCA7D2DBD#32, 0xCD85B8CB#32, 0x1688DC85#32, 0x93AA2577#32⟩ ∧
  traced 51 ⟨0xCA7D2DBD#32, 0xCD85B8CB#32, 0x1688DC85#32, 0x93AA2577#32⟩ = some ⟨0x93AA2577#32, 0x561E0689#32, 0xCD85B8CB#32, 0x1688DC85#32⟩ ∧
  traced 52 ⟨0x93AA2577#32, 0x561E0689#32, 0xCD85B8CB#32, 0x1688DC85#32⟩ = some ⟨0x1688DC85#32, 0x5625A114#32, 0x561E0689#32, 0xCD85B8CB#32⟩ ∧
  traced 53 ⟨0x1688DC85#32, 0x5625A114#32, 0x561E0689#32, 0xCD85B8CB#32⟩ = some ⟨0xCD85B8CB#32, 0x3450F42B#32, 0x5625A114#32, 0x561E0689#32⟩ ∧
  traced 54 ⟨0xCD85B8CB#32, 0x3450F42B#32, 0x5625A114#32, 0x561E0689#32⟩ = some ⟨0x561E0689#32, 0x392AD0D0#32, 0x3450F42B#32, 0x5625A114#32⟩ ∧
  traced 55 ⟨0x561E0689#32, 0x392AD0D0#32, 0x3450F42B#32, 0x5625A114#32⟩ = some ⟨0x5625A114#32, 0x1E77FA61#32, 0x392AD0D0#32, 0x3450F42B#32⟩ ∧
  traced 56 ⟨0x5625A114#32, 0x1E77FA61#32, 0x392AD0D0#32, 0x3450F42B#32⟩ = some ⟨0x3450F42B#32, 0x474A9C8C#32, 0x1E77FA61#32, 0x392AD0D0#32⟩ ∧
  traced 57 ⟨0x3450F42B#32, 0x474A9C8C#32, 0x1E77FA61#32, 0x392AD0D0#32⟩ = some ⟨0x392AD0D0#32, 0xDFCE00BC#32, 0x474A9C8C#32, 0x1E77FA61#32⟩ ∧
  traced 58 ⟨0x392AD0D0#32, 0xDFCE00BC#32, 0x474A9C8C#32, 0x1E77FA61#32⟩ = some ⟨0x1E77FA61#32, 0x36594B14#32, 0xDFCE00BC#32, 0x474A9C8C#32⟩ ∧
  traced 59 ⟨0x1E77FA61#32, 0x36594B14#32, 0xDFCE00BC#32, 0x474A9C8C#32⟩ = some ⟨0x474A9C8C#32, 0x30130182#32, 0x36594B14#32, 0xDFCE00BC#32⟩ ∧
  traced 60 ⟨0x474A9C8C#32, 0x30130182#32, 0x36594B14#32, 0xDFCE00BC#32⟩ = some ⟨0xDFCE00BC#32, 0x7246FAD3#32, 0x30130182#32, 0x36594B14#32⟩ ∧
  traced 61 ⟨0xDFCE00BC#32, 0x7246FAD3#32, 0x30130182#32, 0x36594B14#32⟩ = some ⟨0x36594B14#32, 0x6E10A476#32, 0x7246FAD3#32, 0x30130182#32⟩ ∧
  traced 62 ⟨0x36594B14#32, 0x6E10A476#32, 0x7246FAD3#32, 0x30130182#32⟩ = some ⟨0x30130182#32, 0xFF4EA3EB#32, 0x6E10A476#32, 0x7246FAD3#32⟩ ∧
  traced 63 ⟨0x30130182#32, 0xFF4EA3EB#32, 0x6E10A476#32, 0x7246FAD3#32⟩ = some ⟨0x7246FAD3#32, 0x14E45506#32, 0xFF4EA3EB#32, 0x6E10A476#32⟩ := by decide
theorem test_round_index : get (·.rnd) (exec .rnd41 { full with phase := .round, rnd := 41#6 }) = some 42#6 ∧
  get (·.phase) (exec .rnd63 { full with phase := .round, rnd := 63#6 }) = some .addbk ∧
  get (·.rnd) (exec .rnd63 { full with phase := .round, rnd := 63#6 }) = some 0#6 := by decide
/-- The last line of the trace. -/
theorem test_addbk : get (·.h) (exec .addbk { st .addbk .pl 64#7 0#61 with w := ⟨0x7246FAD3#32, 0x14E45506#32, 0xFF4EA3EB#32, 0x6E10A476#32⟩ }) = some ⟨0xD98C1DD4#32, 0x04B2008F#32, 0x980980E9#32, 0x7E42F8EC#32⟩ := by decide
theorem test_addbk_link : [PadSt.none, .pz, .pl].map (fun p => get (·.phase) (exec .addbk (st .addbk p 64#7 64#61))) = [some .absorb, some .pad, some .done] ∧
  get (·.fill) (exec .addbk (st .addbk .pz 64#7 64#61)) = some 0#7 := by decide

/- Steps, `RESET` and the stuck states (R70, R78, R330). -/
/-- A command presented while RDY = 0 is not accepted and not kept (R333). -/
theorem test_step_busy : get (·.padst) (step { st .pad .p80 3#7 3#61 with inputs := [Pins.command 0x100#10] }) = some .pz ∧
  get (·.inputs) (step { st .pad .p80 3#7 3#61 with inputs := [Pins.command 0x100#10] }) = some [] := by decide
/-- RST = 1 wins over a presented INIT (R70, R330). -/
theorem test_step_reset : next? (step { overflowed with perr := true, inputs := [⟨true, true, 0x100#10⟩] }) = some State.reset := by decide
theorem test_step_idle : next? (step ready) = some ready := by decide
theorem test_step_stuck : fault? (step (st .round .none 5#7 5#61)) = some .partialBlock ∧ next? (step { st .round .none 5#7 5#61 with inputs := [resetPins] }) = some State.reset := by decide
theorem test_with_fetch_word : get (·.phase) (step (State.reset.withFetchWord 10 0x100)) = some .absorb ∧ get (·.padst) (step (State.reset.withFetchWord 12 0x540)) = some .pl ∧
  get (·.rnd) (step (State.reset.withFetchWord 12 0x829)) = some 42#6 := by decide

/- The textual form (R80, R81). -/
theorem test_line_data : assembleLine "DATA 'a' ; x".toList = some [.command 0x261#10] ∧ assembleLine "DATA 0x61".toList = some [.command 0x261#10] ∧
  assembleLine "DATA 97".toList = some [.command 0x261#10] := by decide
/-- P1 of 95_test_vectors.md section 8: HASH "a" is 0x100, 0x261, 0x300. -/
theorem test_line_hash : assembleLine ['H', 'A', 'S', 'H', ' ', quoteMark, 'a', quoteMark] = some [.command 0x100#10, .command 0x261#10, .command 0x300#10] ∧
  assembleLine ['M', 'S', 'G', ' ', quoteMark, quoteMark] = some [] := by decide
theorem test_line_rejects : assembleLine "DATA 256".toList = none ∧ assembleLine "nop".toList = none ∧ assembleLine ".reset".toList = some [.reset] ∧
  assembleLine ".idle 3".toList = some [.idle 3] ∧ assembleLine "; only".toList = some [] := by decide

/-! Witnesses: for each obligation with hypotheses, a concrete case that meets all of them; where it has clauses, one for each, at the
boundaries. -/

/-- The reset state is in the invariant. -/
theorem inv_reset : Inv State.reset := by constructor <;> decide

/-- An open message of 63 bytes with a command waiting. -/
theorem inv_open : Inv { open_ 63#7 63#61 with inputs := [Pins.command 0x261#10] } := by constructor <;> decide

/-- A message one byte below the limit of the length field. -/
theorem inv_almost : Inv (open_ 62#7 0x1FFFFFFFFFFFFFFE#61) := by constructor <;> decide

/-- The phase ERROR. -/
theorem inv_overflowed : Inv overflowed := by constructor <;> decide

/-- A full block of message bytes. -/
theorem inv_full : Inv full := by constructor <;> decide

/-- The core emits the length field of the block. -/
theorem inv_padlen : Inv (st .pad .pl 56#7 3#61) := by constructor <;> decide

/-- The slowest wait: `FINAL` with 56 bytes in the block. -/
theorem inv_slowest : Inv (st .pad .p80 56#7 56#61) := by constructor <;> decide

/-- The digest is valid. -/
theorem inv_ready : Inv ready := by constructor <;> decide

theorem inv_reset_pins (l : List Pins) : Inv { State.reset with inputs := l } := by constructor <;> simp [State.reset, Phase.compressing, Memory.wf, Memory.wfFrom]

theorem witness_DecodeAndEncodeAgree : (Instr.data 0xFF#8).wf = true ∧ decode 0x2FF#12 = .ok (.data 0xFF#8) ∧ decode 0x9EA#12 = .ok .rnd42 := by decide

theorem witness_ResetFromAnyState : { st .pad .none 100#7 5#61 with inputs := [resetPins] }.pins.rst = true := rfl

theorem witness_StepKeepsInvariant :
    Inv { open_ 63#7 63#61 with inputs := [Pins.command 0x261#10] } ∧
    (next? (step { open_ 63#7 63#61 with inputs := [Pins.command 0x261#10] })).isSome = true := ⟨inv_open, by decide⟩

theorem witness_InvariantStatesHaveAStep : Inv overflowed ∧ Inv full ∧ Inv (st .pad .pl 56#7 3#61) :=
  ⟨inv_overflowed, inv_full, inv_padlen⟩

theorem witness_IdleOnlyAfterReset :
    IdleIsReset { State.reset with inputs := [Pins.command 0x100#10] } ∧
    get (·.phase) (step { State.reset with inputs := [Pins.command 0x100#10] }) = some .absorb := ⟨fun _ => rfl, by decide⟩

/-- The four clauses: RESET, an idle step, a command, a micro-operation. -/
theorem witness_StepRunsDecodedInstruction :
    (Inv { State.reset with inputs := [resetPins] } ∧ { State.reset with inputs := [resetPins] }.pins.rst = true) ∧
    (Inv ready ∧ ready.pins.rst = false ∧ rdy ready = true ∧ ready.pins.cv = false) ∧
    (Inv { State.reset with inputs := [Pins.command 0x100#10] } ∧
      { State.reset with inputs := [Pins.command 0x100#10] }.pins.rst = false ∧
      rdy { State.reset with inputs := [Pins.command 0x100#10] } = true ∧
      { State.reset with inputs := [Pins.command 0x100#10] }.pins.cv = true) ∧
    (Inv full ∧ full.pins.rst = false ∧ rdy full = false) :=
  ⟨⟨inv_reset_pins _, rfl⟩, ⟨inv_ready, rfl, rfl, rfl⟩, ⟨inv_reset_pins _, rfl, rfl, rfl⟩, inv_full, rfl, rfl⟩

theorem witness_BusyCoreIgnoresTheHost : rdy full = false ∧ (Pins.command 0x100#10).rst = Pins.quiet.rst := ⟨rfl, rfl⟩

/-- A state outside each item of R40, and ADDBK with P80; with RST = 0 and with RST = 1. -/
theorem witness_StatesOutsideR40HaveOnlyReset :
    ¬ Claims.R40 (st .load .none 63#7 63#61) ∧ ¬ Claims.R40 (st .absorb .none 65#7 1#61) ∧
    ¬ Claims.R40 { State.reset with rnd := 1#6 } ∧ ¬ Claims.R40 (st .idle .pl 0#7 0#61) ∧ ¬ Claims.R40 (st .pad .none 0#7 0#61) ∧
    ¬ Claims.R40 (st .done .pl 1#7 1#61) ∧ ¬ Claims.R40 (st .pad .pl 55#7 3#61) ∧ ¬ Claims.R40 (st .absorb .none 1#7 2#61) ∧
    ¬ Claims.R40 { State.reset with ovf := true } ∧ ¬ Claims.R40 { st .error .none 0#7 0#61 with ovf := true } ∧
    ((st .addbk .p80 64#7 64#61).phase = .addbk ∧ (st .addbk .p80 64#7 64#61).padst = .p80) ∧
    (st .pad .none 0#7 0#61).pins.rst = false ∧ { st .pad .none 0#7 0#61 with inputs := [resetPins] }.pins.rst = true := by
  refine ⟨fun h => ?_, fun h => ?_, fun h => ?_, fun h => ?_, fun h => ?_, fun h => ?_, fun h => ?_, fun h => ?_, fun h => ?_,
    fun h => ?_, ⟨rfl, rfl⟩, rfl, rfl⟩
  · exact absurd (h.item1.2.mpr (.inl rfl)) (by decide)
  · exact absurd h.item1.1 (by decide)
  · exact absurd (h.item2 (by decide)) (by decide)
  · exact absurd (h.item3.1 (.inl rfl)) (by decide)
  · exact absurd rfl (h.item3.2.1 rfl)
  · exact absurd (h.item3.2.2 rfl).2 (by decide)
  · exact absurd (h.item4 rfl rfl).1 (by decide)
  · exact absurd (h.item5 rfl) (by decide)
  · exact absurd (h.item7.1.mp rfl) (by decide)
  · exact absurd (h.item7.2 rfl) (by decide)

/-- A command word of each `op`, with ignored bits set (NopChangesNothing, InitOpensAMessage, DataAppendsAByte,
FinalStartsThePadding). -/
theorem witness_CommandSelects :
    (0x05A#10).extractLsb' 8 2 = 0#2 ∧ (0x1FF#10).extractLsb' 8 2 = 1#2 ∧ (0x2FF#10).extractLsb' 8 2 = 2#2 ∧
    (0x3FF#10).extractLsb' 8 2 = 3#2 := by decide

/-- A selector of each row of R75, with ignored bits set (the `Selects` clause of every micro-operation's statement). -/
theorem witness_Selects :
    0x4FF#12 &&& 0xF80#12 = 0x480#12 ∧ 0x53F#12 &&& 0xFC0#12 = 0x500#12 ∧ 0x57F#12 &&& 0xFC0#12 = 0x540#12 ∧
    0x5FF#12 &&& 0xF80#12 = 0x580#12 ∧ 0x7FF#12 &&& 0xE00#12 = 0x600#12 ∧ 0x9FF#12 &&& 0xE3F#12 = 0x83F#12 ∧
    0xBFF#12 &&& 0xE00#12 = 0xA00#12 := by decide

/-- The three clauses of DataAppendsAByte; the last byte of a block, and the last length below the limit. -/
theorem witness_DataAppendsAByte :
    (Memory.wf ready.buf = true ∧ ready.fill.toNat ≤ 63 ∧ ready.phase ≠ .absorb) ∧
    (Memory.wf (open_ 63#7 Config.maxLen).buf = true ∧ (open_ 63#7 Config.maxLen).fill.toNat ≤ 63 ∧
      (open_ 63#7 Config.maxLen).phase = .absorb ∧ (open_ 63#7 Config.maxLen).len.toNat = 2 ^ 61 - 1) ∧
    (Memory.wf (open_ 62#7 0x1FFFFFFFFFFFFFFE#61).buf = true ∧ (open_ 62#7 0x1FFFFFFFFFFFFFFE#61).fill.toNat ≤ 63 ∧
      (open_ 62#7 0x1FFFFFFFFFFFFFFE#61).phase = .absorb ∧ (open_ 62#7 0x1FFFFFFFFFFFFFFE#61).len.toNat ≠ 2 ^ 61 - 1) ∧
    ((open_ 63#7 63#61).fill.toNat = 63 ∧ (open_ 63#7 63#61).phase = .absorb) := by decide

/-- Both clauses of OverflowIsTaken: the byte too many, and a step in ERROR. -/
theorem witness_OverflowIsTaken :
    ((open_ 63#7 Config.maxLen).phase = .absorb ∧ (open_ 63#7 Config.maxLen).len.toNat = 2 ^ 61 - 1) ∧
    (overflowed.phase = .error ∧ overflowed.pins.rst = false ∧ acceptedNow overflowed ≠ some .init ∧
      (next? (step overflowed)).isSome = true) := by decide

theorem witness_ProtocolIsTaken : State.reset.phase = .idle ∧ ready.phase = .done ∧ overflowed.phase = .error := ⟨rfl, rfl, rfl⟩

theorem witness_FinalStartsThePadding : (open_ 3#7 3#61).phase = .absorb ∧ State.reset.phase ≠ .absorb := by decide

/-- `FILL` at 0 and at the last byte of a block. -/
theorem witness_Pad80EmitsTheMark :
    (Memory.wf (st .pad .p80 0#7 0#61).buf = true ∧ (st .pad .p80 0#7 0#61).fill.toNat ≤ 63) ∧
    (Memory.wf abcBlock = true ∧ (st .pad .p80 63#7 63#61).fill.toNat ≤ 63) := by decide

theorem witness_PadzEmitsAZero :
    (Memory.wf (st .pad .pz 4#7 3#61).buf = true ∧ (st .pad .pz 4#7 3#61).fill.toNat ≤ 63) ∧
    (Memory.wf abcBlock = true ∧ (st .pad .pz 63#7 63#61).fill.toNat ≤ 63) := by decide

/-- The first and the last byte of the length field. -/
theorem witness_PadlenEmitsALengthByte :
    (Memory.wf (st .pad .pl 56#7 3#61).buf = true ∧ 56 ≤ (st .pad .pl 56#7 3#61).fill.toNat ∧
      (st .pad .pl 56#7 3#61).fill.toNat ≤ 63) ∧
    (56 ≤ (st .pad .pl 63#7 3#61).fill.toNat ∧ (st .pad .pl 63#7 3#61).fill.toNat ≤ 63) := by decide

theorem witness_LengthBytesAreTheBitLength : (0 < 8) ∧ (1 ≤ 7 ∧ 7 < 8) := by decide

theorem witness_LoadSeedsTheWorkingRegisters : full.fill = 64#7 := rfl

/-- The hypothesis of the eight statements Rounds00To07 to Rounds56To63 and of RoundsFollowTheTemplate. -/
theorem witness_Rounds : { full with phase := .round, rnd := 63#6, buf := abcBlock }.fill = 64#7 := rfl

/-- The three return links of ADDBK. -/
theorem witness_AddbkFeedsForward :
    ((st .addbk .none 64#7 64#61).fill = 64#7 ∧ (st .addbk .none 64#7 64#61).padst = .none) ∧
    ((st .addbk .pz 64#7 56#61).fill = 64#7 ∧ (st .addbk .pz 64#7 56#61).padst = .pz) ∧
    ((st .addbk .pl 64#7 3#61).fill = 64#7 ∧ (st .addbk .pl 64#7 3#61).padst = .pl) := by decide

/-- Each clause at the first value outside the operation's domain. -/
theorem witness_OperationsOutsideTheirDomainStop :
    ((st .load .none 63#7 63#61).fill ≠ 64#7 ∧ (st .load .none 63#7 63#61).padst ≠ .p80) ∧ (st .addbk .p80 64#7 0#61).padst = .p80 ∧
    (63 < (open_ 64#7 64#61).fill.toNat ∧ (open_ 64#7 64#61).phase = .absorb ∧ (open_ 64#7 64#61).len.toNat ≠ 2 ^ 61 - 1) ∧
    (st .pad .pl 55#7 3#61).fill.toNat < 56 ∧ 63 < (st .pad .pl 64#7 3#61).fill.toNat := by decide

theorem witness_AdditionAndRotationLaws : List.Perm [1#32, 2#32] [2#32, 1#32] ∧ (1 ≤ 1 ∧ 31 ≤ 31) ∧ 31 < 32 :=
  ⟨List.Perm.swap _ _ _, by decide⟩

theorem witness_NonlinearFunctionsBitByBit : 31 < 32 ∧ 63 < 64 := by decide

theorem witness_WordViewOfTheBuffer : Memory.wf abcBlock = true ∧ 63 < 64 ∧ 0 < 64 ∧ (0 : Nat) ≠ 63 := by decide

theorem witness_EqualBuffersAreEqualData :
    Memory.wf abcBlock = true ∧ Memory.wf abcBlock = true ∧ ∀ k, k < 64 → Memory.read abcBlock k = Memory.read abcBlock k :=
  ⟨rfl, rfl, fun _ _ => rfl⟩

/-- The three writers: RESET, INIT, ADDBK. -/
theorem witness_ChainingRegistersHaveThreeWriters :
    get (·.h) (step { ready with inputs := [resetPins] }) ≠ some ready.h ∧
    get (·.h) (step { ready with inputs := [Pins.command 0x100#10] }) ≠ some ready.h ∧
    get (·.h) (step { st .addbk .pl 64#7 0#61 with w := ready.h }) ≠ some (st .addbk .pl 64#7 0#61).h ∧
    (next? (step { ready with inputs := [resetPins] })).isSome = true ∧
    (next? (step { ready with inputs := [Pins.command 0x100#10] })).isSome = true ∧
    (next? (step { st .addbk .pl 64#7 0#61 with w := ready.h })).isSome = true := by decide

/-- A DATA into the last byte of a block, and a PAD80. -/
theorem witness_BufferIsWrittenAtFillOnly :
    (get (fun t => Memory.read t.buf 63) (step { open_ 63#7 63#61 with inputs := [Pins.command 0x261#10] }) = some 0x61#8 ∧
      Memory.read (open_ 63#7 63#61).buf 63 = 0#8 ∧ { open_ 63#7 63#61 with inputs := [Pins.command 0x261#10] }.pins.rst = false) ∧
    (get (fun t => Memory.read t.buf 0) (step (st .pad .p80 0#7 0#61)) = some 0x80#8 ∧ Memory.read (st .pad .p80 0#7 0#61).buf 0 = 0#8 ∧
      (st .pad .p80 0#7 0#61).pins.rst = false) := by decide

/-- A step that sets OVF, one that sets PERR, and one that keeps both. -/
theorem witness_ErrorFlagsAreSticky :
    (get (·.ovf) (step { open_ 63#7 Config.maxLen with inputs := [Pins.command 0x200#10] }) = some true ∧
      acceptedNow { open_ 63#7 Config.maxLen with inputs := [Pins.command 0x200#10] } ≠ some .init ∧
      { open_ 63#7 Config.maxLen with inputs := [Pins.command 0x200#10] }.pins.rst = false) ∧
    (get (·.perr) (step { ready with inputs := [Pins.command 0x300#10] }) = some true ∧
      acceptedNow { ready with inputs := [Pins.command 0x300#10] } ≠ some .init) ∧
    ({ overflowed with perr := true }.ovf = true ∧ (next? (step { overflowed with perr := true })).isSome = true) := by decide

/-- A step that leaves LEN, one that clears it, one that counts. -/
theorem witness_LengthCountsBytesAndNeverWraps :
    (ready.pins.rst = false ∧ (next? (step ready)).isSome = true) ∧
    get (·.len) (step { open_ 3#7 3#61 with inputs := [Pins.command 0x100#10] }) = some 0#61 ∧
    get (·.len) (step { open_ 62#7 0x1FFFFFFFFFFFFFFE#61 with inputs := [Pins.command 0x2FF#10] }) = some Config.maxLen := by decide

theorem witness_SequencerTransitions :
    (Inv full ∧ full.pins.rst = false ∧ (next? (step full)).isSome = true) ∧
    (Inv { State.reset with inputs := [resetPins] } ∧ { State.reset with inputs := [resetPins] }.pins.rst = true ∧
      (next? (step { State.reset with inputs := [resetPins] })).isSome = true) :=
  ⟨⟨inv_full, rfl, rfl⟩, inv_reset_pins _, rfl, rfl⟩

/-- A state for each of the three status values. -/
theorem witness_StatusRegisterFields :
    ((open_ 3#7 3#61).ovf = false ∧ (open_ 3#7 3#61).perr = false ∧ (open_ 3#7 3#61).phase = .absorb) ∧
    (ready.ovf = false ∧ ready.perr = false ∧ ready.phase = .done) ∧
    (overflowed.ovf = true ∧ overflowed.perr = false ∧ overflowed.phase = .error) := by decide

/-- DV = 1 at the last byte, DV = 0, and a step that keeps DV = 1 although it accepts a DATA. -/
theorem witness_DigestPortLanes :
    dv ready = true ∧ 15 < 16 ∧ dv State.reset = false ∧ { ready with inputs := [Pins.command 0x279#10] }.pins.rst = false ∧
    acceptedNow { ready with inputs := [Pins.command 0x279#10] } ≠ some .init ∧
    (next? (step { ready with inputs := [Pins.command 0x279#10] })).isSome = true := by decide

theorem witness_HexPortCharacters : dv ready = true ∧ 15 < 16 ∧ dv State.reset = false := by decide

theorem witness_DigestByteOrder : 3 < 4 := by decide

/-- Two states that differ in a stale byte of BUF and in a working register. -/
theorem witness_HiddenStateNeverShows :
    Alike (open_ 3#7 3#61) { open_ 3#7 3#61 with buf := [(3, 0x99#8)], w := Quad.iv } ∧
    (open_ 3#7 3#61) ≠ { open_ 3#7 3#61 with buf := [(3, 0x99#8)], w := Quad.iv } ∧ (next? (step (open_ 3#7 3#61))).isSome = true := by
  refine ⟨?_, by decide, by decide⟩
  constructor <;> decide

/-- INIT from DONE and from ERROR. -/
theorem witness_InitForgetsTheHistory :
    Inv { ready with inputs := [Pins.command 0x100#10] } ∧ Inv { overflowed with inputs := [Pins.command 0x100#10] } ∧
    rdy ready = true ∧ rdy overflowed = true ∧ acceptedNow { ready with inputs := [Pins.command 0x100#10] } = some .init ∧
    (next? (run (0 + 1) { ready with inputs := [Pins.command 0x100#10] })).isSome = true :=
  ⟨by constructor <;> decide, by constructor <;> decide, rfl, rfl, rfl, rfl⟩

/-- A busy state; FINAL with 55 and with 56 bytes in the block; DATA with 63 bytes in the block. -/
theorem witness_BusyStepsCountDown :
    (Inv (st .pad .p80 56#7 56#61) ∧ (st .pad .p80 56#7 56#61).pins.rst = false ∧ rdy (st .pad .p80 56#7 56#61) = false ∧
      busySteps (st .pad .p80 56#7 56#61) = 205) ∧
    (Inv (open_ 55#7 55#61) ∧ (open_ 55#7 55#61).phase = .absorb) ∧ (Inv (open_ 56#7 56#61) ∧ (open_ 56#7 56#61).phase = .absorb) ∧
    (Inv (open_ 63#7 63#61) ∧ (open_ 63#7 63#61).phase = .absorb ∧ (open_ 63#7 63#61).len.toNat ≠ 2 ^ 61 - 1) := by
  refine ⟨⟨inv_slowest, rfl, rfl, rfl⟩, ⟨?_, rfl⟩, ⟨?_, rfl⟩, ?_, rfl, by decide⟩ <;> constructor <;> decide

theorem witness_CoreBecomesReady : Inv (st .pad .p80 56#7 56#61) ∧ NoReset (busySteps (st .pad .p80 56#7 56#61)) (st .pad .p80 56#7 56#61) :=
  ⟨inv_slowest, fun p h => by simp [st, State.reset] at h⟩

/-- A message of 56 bytes, whose padding is the longest. -/
theorem witness_PaddingShape : (List.replicate 56 0x61#8).length < 2 ^ 61 ∧ (List.replicate 56 0x61#8).length % 64 = 56 := by decide

/-- The shortest message that is too long, and one that is not. -/
theorem witness_OversizedMessagesFail :
    2 ^ 61 ≤ (List.replicate (2 ^ 61) 0x61#8).length ∧ (List.replicate (2 ^ 61 - 1) 0x61#8).length < 2 ^ 61 := by
  rw [List.length_replicate, List.length_replicate]
  omega

theorem witness_CompressionOfOneBlock : Inv full ∧ full.phase = .load ∧ NoReset 66 full :=
  ⟨inv_full, rfl, fun p h => by simp [full, st, State.reset] at h⟩

/-- The message "abc", from reset; the first step and the last before the end. -/
theorem witness_TransactionTakesTheStatedSteps :
    Inv { State.reset with inputs := transactionPins [0x61#8, 0x62#8, 0x63#8] } ∧
    rdy { State.reset with inputs := transactionPins [0x61#8, 0x62#8, 0x63#8] } = true ∧ [0x61#8, 0x62#8, 0x63#8].length < 2 ^ 61 ∧
    (1 ≤ 1 ∧ 1 < transactionSteps [0x61#8, 0x62#8, 0x63#8].length) ∧ (1 ≤ 132 ∧ 132 < transactionSteps [0x61#8, 0x62#8, 0x63#8].length) :=
  ⟨inv_reset_pins _, rfl, by decide⟩

/-- A NOP, INIT, an idle step, "a" and FINAL, from reset. -/
theorem witness_EveryInterleavingComputesMd5 :
    Inv { State.reset with inputs := [Pins.command 0#10, Pins.command 0x100#10, Pins.quiet, Pins.command 0x261#10, Pins.command 0x300#10] } ∧
    [0x61#8].length < 2 ^ 61 ∧
    NoReset (5 + 205)
      { State.reset with inputs := [Pins.command 0#10, Pins.command 0x100#10, Pins.quiet, Pins.command 0x261#10, Pins.command 0x300#10] } ∧
    (accepted 5
      { State.reset with
        inputs := [Pins.command 0#10, Pins.command 0x100#10, Pins.quiet, Pins.command 0x261#10, Pins.command 0x300#10] }).filter
      (fun i => decide (i ≠ .nop)) = .init :: ([0x61#8].map Instr.data ++ [.final]) :=
  ⟨inv_reset_pins _, by decide, by simp [NoReset, Pins.command, Pins.quiet], by decide⟩

/-- The first and the last block of two; one past them; a length that is no multiple of 64; the longest message and one too long. -/
theorem witness_CompressionIsOfWholeBlocksOnly :
    ((List.replicate 128 0x61#8).length % 64 = 0 ∧ 0 < (List.replicate 128 0x61#8).length / 64 ∧ 1 < (List.replicate 128 0x61#8).length / 64) ∧
    (List.replicate 128 0x61#8).length / 64 ≤ 2 ∧ (List.replicate 127 0x61#8).length % 64 ≠ 0 ∧
    (List.replicate (2 ^ 61 - 1) 0x61#8).length < 2 ^ 61 ∧ 2 ^ 61 ≤ (List.replicate (2 ^ 61) 0x61#8).length := by
  simp only [List.length_replicate]
  decide

/-- A command held while the core is busy; the largest operand of DATA, the first and the last printable character, a text. -/
theorem witness_HeldCommandIsAcceptedOnce :
    Inv full ∧ Inv State.reset ∧ 255 < 256 ∧ printableAscii ' ' = true ∧ printableAscii '~' = true ∧ ['a', Char.ofNat 127].all ascii = true :=
  ⟨inv_full, inv_reset, by decide⟩

end Sys2Proof.Tests
end

section
/-! SUPPORT. The converse of `step_effect`: each case of `StepEffect` is the step of a state that is not stuck. With the two, a
claim that relates the steps of two states is a case analysis of one of them. -/

namespace Sys2Proof.Machine

/-- A state that has a step without `RESET` is not stuck (R78). -/
theorem not_stuck_of_step {s t : State} (h : step s = .next t) (hr : s.pins.rst = false) : stuckReason s.tick = none := by
  cases hs : stuckReason s.tick with
  | none => rfl
  | some f => cases (step_stuck hr hs).symm.trans h

section
variable {s : State} (hs : s.pins.rst = false → stuckReason s.tick = none)
include hs

/-- The step that accepts a command executes it (R70, R71). -/
theorem step_accepted {i : Instr} (ha : acceptedNow s = some i) : step s = exec i s.tick := by
  obtain ⟨hr, hd, hc, rfl⟩ := acceptedNow_some ha
  exact step_command hr (hs hr) hd hc

/-- The step of a state whose registers select a micro-operation executes it: no ready phase selects one (R75). -/
theorem step_selected {i : Instr} (hr : s.pins.rst = false) (hd : decodeUsel (usel s) = .ok i) : step s = exec i s.tick := by
  refine step_micro hr (hs hr) ?_ hd
  rw [decodeUsel_usel] at hd
  cases hp : s.phase <;> simp [hp] at hd <;> simp [rdy, hp, Phase.ready]

/-- The converse of `step_effect`: a case that applies to a state is the step it takes. -/
theorem StepEffect.step_eq {t : State} (h : StepEffect s s.tick t) : step s = .next t := by
  cases h with
  | reset hr => exact step_reset hr
  | idle hr hd hc => exact step_idle hr (hs hr) hd hc
  | nop ha | init ha => exact step_accepted hs ha
  | dataProtocol b ha hp | finalProtocol ha hp => exact (step_accepted hs ha).trans (if_pos hp)
  | dataOverflow b ha hp hl => rw [step_accepted hs ha]; simp [exec, execData, hp, hl]
  | data b ha hp hl hf => rw [step_accepted hs ha]; simp [exec, execData, hp, hl, push, hf]
  | final ha hp => rw [step_accepted hs ha]; simp [exec, execFinal, hp]
  | pad80 hr hp hq hf => exact (step_selected hs (i := .pad80) hr (by simp [decodeUsel_usel, hp, hq])).trans (push_eq hf)
  | padz hr hp hq hz hf => exact (step_selected hs (i := .padz) hr (by simp [decodeUsel_usel, hp, hq, hz])).trans (push_eq hf)
  | padsw hr hp hq hz => exact step_selected hs (i := .padsw) hr (by simp [decodeUsel_usel, hp, hq, hz])
  | padlen hr hp hq hl hf =>
    rw [step_selected hs (i := .padlen) hr (by simp [decodeUsel_usel, hp, hq])]
    simp [exec, execPadlen, lengthIndex, hl, hf, push, lengthByte, bitLength]
  | load hr hp hf => exact (step_selected hs (i := .load) hr (by simp [decodeUsel_usel, hp])).trans (onWholeBlock_eq hf)
  | round hr hp hf hi f g k n he | lastRound hr hp hf hi f g k n he =>
    rw [step_selected hs (i := roundInstr s.rnd) hr (by simp [decodeUsel_usel, hp]), he]
    exact onWholeBlock_eq hf
  | addbkAbsorb hr hp hq hf | addbkPad hr hp hq hf | addbkDone hr hp hq hf =>
    rw [step_selected hs (i := .addbk) hr (by simp [decodeUsel_usel, hp])]
    simp [exec, execAddbk, hq, onWholeBlock, hf]

end

end Sys2Proof.Machine
end

section
/-! SUPPORT. The relation `Alike` (10_state.md R23, R37): what two alike states have in common, and that each operation on the
state keeps them alike. -/

namespace Sys2Proof.Machine

section
variable {s t : State} (a : Alike s t)
include a

theorem Alike.pins_eq : s.pins = t.pins := by simp only [State.pins, a.inputs]

theorem Alike.rdy_eq : rdy s = rdy t := by simp only [rdy, a.phase]

theorem Alike.dv_eq : dv s = dv t := by simp only [dv, a.phase]

/-- The outputs are functions of `PHASE`, the flags and `A, B, C, D` (R34, R152, R153). -/
theorem Alike.observe_eq : observe s = observe t := by
  simp only [observe, status, digestPort, hexPort, a.rdy_eq, a.dv_eq, a.h, a.phase, a.ovf, a.perr]

theorem Alike.acceptedNow_eq : acceptedNow s = acceptedNow t := by simp only [acceptedNow, a.pins_eq, a.rdy_eq]

theorem Alike.stuckReason_eq : stuckReason s = stuckReason t := by
  simp only [stuckReason, a.fill, a.phase, a.padst, a.rnd, a.len, a.ovf]

theorem Alike.lengthByte_eq (k : Nat) : lengthByte s k = lengthByte t k := by simp only [lengthByte, bitLength, a.len]

/-- On a whole block no byte of `BUF` is stale. -/
theorem Alike.blockWord_eq (hf : s.fill = 64#7) (g : Fin 16) : blockWord s.buf g = blockWord t.buf g :=
  blockWord_congr _ _ g fun i hi => a.bytes i (by rw [hf]; exact hi)

theorem Alike.tick : Alike s.tick t.tick := { a with inputs := congrArg List.tail a.inputs }

theorem Alike.resetCore : Alike (resetCore s) (resetCore t) :=
  { h := rfl, fill := rfl, len := rfl, phase := rfl, padst := rfl, rnd := rfl, ovf := rfl, perr := rfl, inputs := a.inputs,
    bytes := fun _ _ => rfl, working := fun _ => rfl, buffers := ⟨rfl, rfl⟩ }

theorem Alike.opened : Alike (opened s) (opened t) :=
  { h := rfl, fill := rfl, len := rfl, phase := rfl, padst := rfl, rnd := rfl, ovf := rfl, perr := rfl, inputs := a.inputs,
    bytes := fun _ hi => absurd hi (Nat.not_lt_zero _), working := fun h => by simp at h, buffers := a.buffers }

theorem Alike.raise_protocol : Alike (raise .protocol s) (raise .protocol t) := { a with perr := rfl }

theorem Alike.raise_overflow : Alike (raise .overflow s) (raise .overflow t) :=
  { a with ovf := rfl, phase := rfl, working := fun h => by simp at h }

/-- `PUSH` writes the same byte at the same place, so the bytes below the new `FILL` agree (R104). -/
theorem Alike.pushed (v : Byte) {p : Phase} (hp : p ≠ .round ∧ p ≠ .addbk) (hf : s.fill.toNat ≤ 63) :
    Alike (pushed v p s) (pushed v p t) := by
  obtain ⟨hs, ht⟩ := a.buffers
  refine { a with fill := ?_, phase := ?_, bytes := fun i hi => ?_, working := fun h => ?_, buffers := ⟨?_, ?_⟩ }
  · simp only [pushed_fill, a.fill]
  · simp only [pushed_phase, a.fill]
  · have hi' : i < s.fill.toNat + 1 := Nat.lt_of_lt_of_le hi (Nat.mod_le _ _)
    simp only [pushed_buf, ← a.fill, Memory.read_write _ _ _ _ hs, Memory.read_write _ _ _ _ ht]
    split
    · rfl
    · exact a.bytes i (by omega)
  · simp only [pushed_phase] at h
    split at h <;> simp [hp] at h
  · exact Memory.wf_write _ _ _ hs hf
  · exact Memory.wf_write _ _ _ ht (a.fill ▸ hf)

/-- The feed-forward shows `a, b, c, d` and makes every byte of `BUF` stale (R145). -/
theorem Alike.addedBack (hw : s.w = t.w) {p : Phase} (hp : p ≠ .round ∧ p ≠ .addbk) : Alike (addedBack p s) (addedBack p t) :=
  { a with
    h := by simp only [addedBack_h, a.h, hw]
    fill := rfl
    phase := rfl
    bytes := fun _ hi => absurd hi (Nat.not_lt_zero _)
    working := fun h => by simp [hp] at h }

/-- A step of one state is a step of the other by the same case, and they stay alike. -/
theorem Alike.effect {s' : State} (h : StepEffect s s.tick s') : ∃ t', StepEffect t t.tick t' ∧ Alike s' t' := by
  have u := a.tick
  cases h with
  | reset hr => exact ⟨_, .reset (a.pins_eq ▸ hr), u.resetCore⟩
  | idle hr hd hc => exact ⟨_, .idle (a.pins_eq ▸ hr) (a.rdy_eq ▸ hd) (a.pins_eq ▸ hc), u⟩
  | nop ha => exact ⟨_, .nop (a.acceptedNow_eq ▸ ha), u⟩
  | init ha => exact ⟨_, .init (a.acceptedNow_eq ▸ ha), u.opened⟩
  | dataProtocol b ha hp => exact ⟨_, .dataProtocol b (a.acceptedNow_eq ▸ ha) (a.phase ▸ hp), u.raise_protocol⟩
  | dataOverflow b ha hp hl =>
    exact ⟨_, .dataOverflow b (a.acceptedNow_eq ▸ ha) (a.phase ▸ hp) (a.len ▸ hl), u.raise_overflow⟩
  | data b ha hp hl hf =>
    have u' : Alike { s.tick with len := s.len + 1#61 } { t.tick with len := t.len + 1#61 } :=
      { u with len := congrArg (· + 1#61) a.len }
    exact ⟨_, .data b (a.acceptedNow_eq ▸ ha) (a.phase ▸ hp) (a.len ▸ hl) (a.fill ▸ hf), u'.pushed b (by decide) hf⟩
  | finalProtocol ha hp => exact ⟨_, .finalProtocol (a.acceptedNow_eq ▸ ha) (a.phase ▸ hp), u.raise_protocol⟩
  | final ha hp =>
    exact ⟨_, .final (a.acceptedNow_eq ▸ ha) (a.phase ▸ hp),
      { u with phase := rfl, padst := rfl, working := fun h => by simp at h }⟩
  | pad80 hr hp hq hf =>
    have u' : Alike { s.tick with padst := .pz } { t.tick with padst := .pz } := { u with padst := rfl }
    exact ⟨_, .pad80 (a.pins_eq ▸ hr) (a.phase ▸ hp) (a.padst ▸ hq) (a.fill ▸ hf), u'.pushed _ (by decide) hf⟩
  | padz hr hp hq hz hf =>
    exact ⟨_, .padz (a.pins_eq ▸ hr) (a.phase ▸ hp) (a.padst ▸ hq) (a.fill ▸ hz) (a.fill ▸ hf), u.pushed _ (by decide) hf⟩
  | padsw hr hp hq hz =>
    exact ⟨_, .padsw (a.pins_eq ▸ hr) (a.phase ▸ hp) (a.padst ▸ hq) (a.fill ▸ hz), { u with padst := rfl }⟩
  | padlen hr hp hq hl hf =>
    refine ⟨_, .padlen (a.pins_eq ▸ hr) (a.phase ▸ hp) (a.padst ▸ hq) (a.fill ▸ hl) (a.fill ▸ hf), ?_⟩
    rw [a.lengthByte_eq, a.fill]
    exact u.pushed _ (by decide) hf
  | load hr hp hf =>
    exact ⟨_, .load (a.pins_eq ▸ hr) (a.phase ▸ hp) (a.fill ▸ hf), { u with phase := rfl, rnd := rfl, working := fun _ => a.h }⟩
  | round hr hp hf hi f g k n he =>
    refine ⟨_, .round (a.pins_eq ▸ hr) (a.phase ▸ hp) (a.fill ▸ hf) (a.rnd ▸ hi) f g k n (a.rnd ▸ he), ?_⟩
    exact { u with
      rnd := by simp only [a.rnd]
      working := fun _ => by simp only [a.working (.inl hp), a.blockWord_eq hf] }
  | lastRound hr hp hf hi f g k n he =>
    refine ⟨_, .lastRound (a.pins_eq ▸ hr) (a.phase ▸ hp) (a.fill ▸ hf) (a.rnd ▸ hi) f g k n (a.rnd ▸ he), ?_⟩
    exact { u with
      phase := rfl
      rnd := rfl
      working := fun _ => by simp only [a.working (.inl hp), a.blockWord_eq hf] }
  | addbkAbsorb hr hp hq hf =>
    exact ⟨_, .addbkAbsorb (a.pins_eq ▸ hr) (a.phase ▸ hp) (a.padst ▸ hq) (a.fill ▸ hf),
      u.addedBack (a.working (.inr hp)) (by decide)⟩
  | addbkPad hr hp hq hf =>
    exact ⟨_, .addbkPad (a.pins_eq ▸ hr) (a.phase ▸ hp) (a.padst ▸ hq) (a.fill ▸ hf),
      u.addedBack (a.working (.inr hp)) (by decide)⟩
  | addbkDone hr hp hq hf =>
    exact ⟨_, .addbkDone (a.pins_eq ▸ hr) (a.phase ▸ hp) (a.padst ▸ hq) (a.fill ▸ hf),
      u.addedBack (a.working (.inr hp)) (by decide)⟩

/-- Alike states step to alike states. -/
theorem Alike.step {s' : State} (h : step s = .next s') : ∃ t', step t = .next t' ∧ Alike s' t' := by
  obtain ⟨t', ht, a'⟩ := a.effect (step_effect h)
  have hs (hr : t.pins.rst = false) : stuckReason t.tick = none :=
    a.tick.stuckReason_eq ▸ not_stuck_of_step h (a.pins_eq ▸ hr)
  exact ⟨t', ht.step_eq hs, a'⟩

end

/-- Settles O50: `Alike` fixes the outputs and is kept by every step. -/
theorem hiddenStateNeverShows : Obligations.HiddenStateNeverShows :=
  fun _ _ a => ⟨a.observe_eq, fun _ h => a.step h⟩

end Sys2Proof.Machine
end

section
/-! SUPPORT. The word view `X` of `BUF`, as a number and byte by byte (10_state.md R25, 20_memory.md R52). -/

namespace Sys2Proof.Machine

/-- The number of two fields side by side. -/
theorem toNat_append_eq_add {n m : Nat} (x : BitVec n) (y : BitVec m) : (x ++ y).toNat = 2 ^ m * x.toNat + y.toNat := by
  rw [BitVec.toNat_append, ← Nat.shiftLeft_add_eq_or_of_lt y.isLt, Nat.shiftLeft_eq, Nat.mul_comm]

/-- R25: the word view is the little-endian number of its four bytes. -/
theorem blockWord_eq_wordAt (m : Memory) (j : Fin 16) : blockWord m j = Claims.wordAt m j.val := by
  apply BitVec.eq_of_toNat_eq
  simp only [blockWord, Claims.wordAt, toNat_append_eq_add, BitVec.toNat_ofNat]
  omega

/-- Byte `r` of `X[g]` is `BUF[4g + r]` (R52). -/
theorem extractLsb'_blockWord (m : Memory) (g : Fin 16) {r : Nat} (hr : r < 4) :
    (blockWord m g).extractLsb' (8 * r) 8 = Memory.read m (4 * g.val + r) := by
  apply BitVec.eq_of_toNat_eq
  rw [blockWord_eq_wordAt, BitVec.extractLsb'_toNat, Nat.shiftRight_eq_div_pow, Claims.wordAt, BitVec.toNat_ofNat]
  interval_cases r <;> simp only [Nat.reduceMul, Nat.add_zero] <;> omega

/-- `BUF[k]` is byte `k mod 4` of `X[k div 4]` (R52). -/
theorem extractLsb'_blockWord_div (m : Memory) {k : Nat} (hk : k < 64) :
    (blockWord m ⟨k / 4, by omega⟩).extractLsb' (8 * (k % 4)) 8 = Memory.read m k := by
  rw [extractLsb'_blockWord m _ (Nat.mod_lt k (by decide)), Nat.div_add_mod]

/-- Settles O39: by the bytes of a word and the two laws of a read after a write. -/
theorem wordViewOfTheBuffer : Obligations.WordViewOfTheBuffer := by
  refine ⟨blockWord_eq_wordAt, fun m k v hk hm => ⟨?_, fun k' hk' hne => ?_⟩⟩
  · rw [extractLsb'_blockWord_div _ hk, Memory.read_write_same m 0 k v hm]
  · rw [extractLsb'_blockWord_div _ hk', extractLsb'_blockWord_div _ hk', Memory.read_write_other m k k' v hne]

end Sys2Proof.Machine
end

section
/-! SUPPORT. Which steps write the chaining registers, the sticky flags and `LEN` (10_state.md R21, R27, R32), by the cases of
`StepEffect`. -/

namespace Sys2Proof.Machine

/-- Settles O41: in every case of a step but the three writers' the chaining registers are those of before. -/
theorem chainingRegistersHaveThreeWriters : Obligations.ChainingRegistersHaveThreeWriters := by
  intro s t h hne
  cases step_effect h with
  | reset hr => exact .inl hr
  | init ha => exact .inr (.inl ha)
  | addbkAbsorb hr hp _ _ | addbkPad hr hp _ _ | addbkDone hr hp _ _ => exact .inr (.inr ⟨hr, hp⟩)
  | _ => exact absurd rfl hne

/-- Settles O43: the flags change in the cases of the two exceptions only. -/
theorem errorFlagsAreSticky : Obligations.ErrorFlagsAreSticky := by
  intro s t h hr hni
  cases step_effect h with
  | reset hr' => simp [hr] at hr'
  | init ha => exact absurd ha hni
  | dataProtocol b ha hp => exact ⟨id, fun _ => rfl, .inl, fun _ => .inr ⟨hp, .inr ⟨b, ha⟩⟩⟩
  | finalProtocol ha hp => exact ⟨id, fun _ => rfl, .inl, fun _ => .inr ⟨hp, .inl ha⟩⟩
  | dataOverflow b ha hp hl => exact ⟨fun _ => rfl, id, fun _ => .inr ⟨hp, by rw [hl]; rfl, b, ha⟩, .inl⟩
  | _ => exact ⟨id, id, .inl, .inl⟩

/-- Below the largest length one more byte does not wrap (R27). -/
theorem toNat_succ_of_ne_maxLen {l : BitVec 61} (h : l ≠ Config.maxLen) : (l + 1#61).toNat = l.toNat + 1 := by
  unfold Config.maxLen at h
  bv_omega

/-- Settles O44: `LEN` changes in the cases of `INIT` and of a counted `DATA` only. -/
theorem lengthCountsBytesAndNeverWraps : Obligations.LengthCountsBytesAndNeverWraps := by
  intro s t h hr
  cases step_effect h with
  | reset hr' => simp [hr] at hr'
  | init ha => exact .inr (.inl ⟨ha, rfl⟩)
  | data b ha hp hl hf => exact .inr (.inr ⟨hp, ⟨b, ha⟩, toNat_succ_of_ne_maxLen hl⟩)
  | _ => exact .inl rfl

end Sys2Proof.Machine
end

section
/-! SUPPORT. The reset state (10_state.md R20) and the fields of the status register (R33, R34). -/

namespace Sys2Proof.Machine

/-- Settles O5: the reset state is written out in the model, and its buffer lists no byte. -/
theorem resetStateRegisters : Obligations.ResetStateRegisters :=
  ⟨rfl, rfl, Memory.read_nil, rfl, rfl, rfl, rfl, rfl, rfl, rfl, rfl, rfl⟩

theorem rdy_iff (s : State) : rdy s = true ↔ s.phase = .idle ∨ s.phase = .absorb ∨ s.phase = .done ∨ s.phase = .error := by
  unfold rdy
  cases s.phase <;> simp [Phase.ready]

theorem dv_iff (s : State) : dv s = true ↔ s.phase = .done := decide_eq_true_iff

/-- The single bits of `STATUS` (R34). -/
theorem status_bits (s : State) :
    (status s).getLsbD 0 = rdy s ∧ (status s).getLsbD 1 = dv s ∧ (status s).getLsbD 2 = s.ovf ∧ (status s).getLsbD 3 = s.perr ∧
    (status s).getLsbD 7 = false := by
  simp only [status, BitVec.getLsbD_append]
  simp

/-- `STATUS[6:4]` is `PHASE` (R34): four bits stand below it and one above. -/
theorem status_phase (s : State) : (status s).extractLsb' 4 3 = s.phase.code := by
  unfold status
  rw [BitVec.extractLsb'_append_eq_of_le (by decide), BitVec.extractLsb'_append_eq_of_le (by decide),
    BitVec.extractLsb'_append_eq_of_le (by decide), BitVec.extractLsb'_append_eq_of_le (by decide)]
  exact BitVec.extractLsb'_append_eq_right

/-- `STATUS` from the registers it is made of. -/
theorem status_of {s : State} {p : Phase} {o e : Bool} (ho : s.ovf = o) (he : s.perr = e) (hp : s.phase = p) :
    status s = 0#1 ++ p.code ++ BitVec.ofBool e ++ BitVec.ofBool o ++ BitVec.ofBool (decide (p = .done)) ++
      BitVec.ofBool p.ready := by
  subst ho he hp
  rfl

/-- Settles O46: bit by bit; the named values are the concatenation at a given phase and given flags. -/
theorem statusRegisterFields : Obligations.StatusRegisterFields := by
  refine ⟨fun s => ?_, rfl⟩
  obtain ⟨b0, b1, b2, b3, b7⟩ := status_bits s
  exact ⟨rdy_iff s, dv_iff s, b0, b1, b2, b3, status_phase s, b7, fun ho he hp => status_of ho he hp,
    fun ho he hp => status_of ho he hp, fun ho he hp => status_of ho he hp⟩

end Sys2Proof.Machine
end

section
/-! SUPPORT. The canonical form of `BUF` is unique: the first listed index is the least one that reads other than 0 (20_memory.md
section 1, R50). -/

namespace Sys2Proof.Machine

theorem Memory.wfFrom_cons {lo j : Nat} {u : Byte} {m : Memory} :
    Memory.wfFrom lo ((j, u) :: m) = true ↔ lo ≤ j ∧ j ≤ 63 ∧ u ≠ 0#8 ∧ Memory.wfFrom (j + 1) m = true := by
  simp [Memory.wfFrom, and_assoc]

theorem Memory.read_cons_same (j : Nat) (u : Byte) (m : Memory) : Memory.read ((j, u) :: m) j = u := if_pos rfl

theorem Memory.read_cons_other {j k : Nat} (u : Byte) (m : Memory) (hk : k ≠ j) :
    Memory.read ((j, u) :: m) k = Memory.read m k := if_neg hk

/-- The first listed index of a canonical buffer is at most every index that reads other than 0. -/
theorem Memory.head_le_of_read_ne_zero {lo j k : Nat} {u : Byte} {m : Memory} (h : Memory.wfFrom lo ((j, u) :: m) = true)
    (hk : Memory.read ((j, u) :: m) k ≠ 0#8) : j ≤ k := by
  obtain ⟨-, h63, hu, hm⟩ := Memory.wfFrom_cons.mp h
  by_contra hlt
  exact hk (Memory.read_below_wfFrom _ j k (Memory.wfFrom_cons.mpr ⟨Nat.le_refl j, h63, hu, hm⟩) (Nat.lt_of_not_le hlt))

/-- A canonical buffer is fixed by what it reads. -/
theorem Memory.eq_of_read_eq {m m' : Memory} {lo : Nat} (h : Memory.wfFrom lo m = true) (h' : Memory.wfFrom lo m' = true)
    (he : ∀ k, Memory.read m k = Memory.read m' k) : m = m' := by
  induction m generalizing lo m' with
  | nil =>
    cases m' with
    | nil => rfl
    | cons c' r' =>
      obtain ⟨j', u'⟩ := c'
      obtain ⟨-, -, hu', -⟩ := Memory.wfFrom_cons.mp h'
      exact absurd ((he j').trans (Memory.read_cons_same j' u' r')).symm hu'
  | cons c r ih =>
    obtain ⟨j, u⟩ := c
    obtain ⟨-, -, hu, hr⟩ := Memory.wfFrom_cons.mp h
    have hj := Memory.read_cons_same j u r
    cases m' with
    | nil => exact absurd (hj.symm.trans (he j)) hu
    | cons c' r' =>
      obtain ⟨j', u'⟩ := c'
      obtain ⟨-, -, hu', hr'⟩ := Memory.wfFrom_cons.mp h'
      have hj' := Memory.read_cons_same j' u' r'
      have hjj : j = j' := Nat.le_antisymm
        (Memory.head_le_of_read_ne_zero h (k := j') (by rwa [he, hj']))
        (Memory.head_le_of_read_ne_zero h' (k := j) (by rwa [← he, hj]))
      subst hjj
      have huu : u = u' := hj.symm.trans ((he j).trans hj')
      have hrest (k : Nat) : Memory.read r k = Memory.read r' k := by
        by_cases hk : k = j
        · rw [hk, Memory.read_below_wfFrom r (j + 1) j hr (by omega), Memory.read_below_wfFrom r' (j + 1) j hr' (by omega)]
        · simpa only [Memory.read_cons_other _ _ hk] using he k
      rw [huu, ih hr hr' hrest]

/-- Settles O40: indices above 63 read 0 in both, so the buffers read alike everywhere. -/
theorem equalBuffersAreEqualData : Obligations.EqualBuffersAreEqualData := by
  intro m m' h h' he
  refine Memory.eq_of_read_eq h h' fun k => ?_
  obtain hk | hk := Nat.lt_or_ge k 64
  · exact he k hk
  · rw [Memory.read_above m 0 k h hk, Memory.read_above m' 0 k h' hk]

end Sys2Proof.Machine
end

section
/-! SUPPORT. Where an operation stops: outside the domain of `PUSH`, of the length field, and of a whole block (R56, R104,
R112, R145). -/

namespace Sys2Proof.Machine

theorem push_fault {v : Byte} {p : Phase} {s : State} (h : 63 < s.fill.toNat) : push v p s = .fault .bufferIndex :=
  if_neg (Nat.not_le_of_lt h)

/-- With the pushed byte counted in `LEN`, a `DATA` is a `PUSH` (R107). -/
theorem execData_eq_push {s : State} (b : Byte) (hp : s.phase = .absorb) (hl : s.len ≠ Config.maxLen) :
    execData b s = push b .absorb { s with len := s.len + 1#61 } := by
  simp [execData, hp, hl]

theorem execPadlen_fault {s : State} (h : s.fill.toNat < 56 ∨ 63 < s.fill.toNat) : execPadlen s = .fault .lengthPosition := by
  have hk : lengthIndex s = none := if_neg (by omega)
  simp [execPadlen, hk]

/-- A round acts on a whole block only (R56). -/
theorem exec_round_fault {s : State} (i : BitVec 6) (h : s.fill ≠ 64#7) : exec (roundInstr i) s = .fault .partialBlock := by
  obtain ⟨f, g, k, n, he⟩ := exec_round i
  rw [he]
  split <;> exact onWholeBlock_fault h

theorem execAddbk_partialBlock {s : State} (h : s.fill ≠ 64#7) (hq : s.padst ≠ .p80) : execAddbk s = .fault .partialBlock := by
  unfold execAddbk
  split
  · exact onWholeBlock_fault h
  · exact onWholeBlock_fault h
  · exact onWholeBlock_fault h
  · next hp => exact absurd hp hq

theorem execAddbk_beforePad {s : State} (hq : s.padst = .p80) : execAddbk s = .fault .addbkBeforePad := by
  simp [execAddbk, hq]

/-- Settles O35: each operation by the shared operation it ends in. -/
theorem operationsOutsideTheirDomainStop : Obligations.OperationsOutsideTheirDomainStop := by
  intro s
  refine ⟨fun hf => ⟨onWholeBlock_fault hf, fun i => exec_round_fault i hf, execAddbk_partialBlock hf⟩,
    execAddbk_beforePad, fun hf => ⟨push_fault hf, push_fault hf, fun hp hl b => ?_⟩, execPadlen_fault⟩
  have hne : s.len ≠ Config.maxLen := fun e => hl (by rw [e]; rfl)
  exact (execData_eq_push b hp hne).trans (push_fault hf)

end Sys2Proof.Machine
end

section
/-! SUPPORT. Which steps write `BUF` and where (20_memory.md R51, 41_preprocessor.md R104), by the cases of `StepEffect`. -/

namespace Sys2Proof.Machine

/-- A byte that `PUSH` changes is the one at `FILL`; `FILL <= 63` keeps the count from wrapping (R104). -/
theorem pushed_writes_at_fill {v : Byte} {p : Phase} {s : State} {a : Nat}
    (hne : Memory.read (pushed v p s).buf a ≠ Memory.read s.buf a) (hf : s.fill.toNat ≤ 63) :
    a = s.fill.toNat ∧ (pushed v p s).fill.toNat = s.fill.toNat + 1 := by
  constructor
  · by_contra ha
    exact hne (Memory.read_write_other _ _ _ _ ha)
  · rw [pushed_fill]
    bv_omega

/-- Settles O42: the four cases of a step that push write at `FILL`; in every other case `BUF` is that of before. -/
theorem bufferIsWrittenAtFillOnly : Obligations.BufferIsWrittenAtFillOnly := by
  intro s t a h hr hne
  cases step_effect h with
  | reset hr' => simp [hr] at hr'
  | data b ha hp hl hf =>
    obtain ⟨h1, h2⟩ := pushed_writes_at_fill hne hf
    exact ⟨h1, hf, h2, .inl ⟨hp, b, ha⟩⟩
  | pad80 _ hp _ hf | padz _ hp _ _ hf | padlen _ hp _ _ hf =>
    obtain ⟨h1, h2⟩ := pushed_writes_at_fill hne hf
    exact ⟨h1, hf, h2, .inr hp⟩
  | _ => exact absurd rfl hne

end Sys2Proof.Machine
end

section
/-! SUPPORT. The two formats field by field: a selector under a row of R75, and a command word under a row of R72 (30_encoding.md
sections 2 and 3). -/

namespace Sys2Proof.Machine

/-- Two concatenations of the same widths agree exactly when their parts do. -/
theorem append_eq_append_iff {n m : Nat} {x x' : BitVec n} {y y' : BitVec m} : x ++ y = x' ++ y' ↔ x = x' ∧ y = y' := by
  constructor
  · intro h
    have hx := congrArg (BitVec.extractLsb' m n) h
    have hy := congrArg (BitVec.extractLsb' 0 m) h
    rw [BitVec.extractLsb'_append_eq_left, BitVec.extractLsb'_append_eq_left] at hx
    rw [BitVec.extractLsb'_append_eq_right, BitVec.extractLsb'_append_eq_right] at hy
    exact ⟨hx, hy⟩
  · rintro ⟨rfl, rfl⟩
    rfl

theorem Phase.ofCode_code (p : Phase) : Phase.ofCode p.code = p := by cases p <;> rfl

theorem PadSt.ofCode_code (q : PadSt) : PadSt.ofCode q.code = q := by cases q <;> rfl

@[simp] theorem Phase.code_inj {p q : Phase} : p.code = q.code ↔ p = q :=
  (Function.LeftInverse.injective Phase.ofCode_code).eq_iff

@[simp] theorem PadSt.code_inj {p q : PadSt} : p.code = q.code ↔ p = q :=
  (Function.LeftInverse.injective PadSt.ofCode_code).eq_iff

theorem Phase.code_ofCode (c : BitVec 3) : (Phase.ofCode c).code = c := by
  revert c
  decide

theorem PadSt.code_ofCode (c : BitVec 2) : (PadSt.ofCode c).code = c := by
  revert c
  decide

/-- A 12-bit word is made of the four fields of R74. -/
theorem selector_fields (w : BitVec 12) :
    w.extractLsb' 9 3 ++ w.extractLsb' 7 2 ++ w.extractLsb' 6 1 ++ w.extractLsb' 0 6 = w := by
  rw [BitVec.extractLsb'_append_extractLsb'_eq_extractLsb' (start₂ := 9) (start₁ := 7) rfl,
    BitVec.extractLsb'_append_extractLsb'_eq_extractLsb' (start₂ := 7) (start₁ := 6) rfl,
    BitVec.extractLsb'_append_extractLsb'_eq_extractLsb' (start₂ := 6) (start₁ := 0) rfl]
  exact BitVec.extractLsb'_eq_self

/-- Every 12-bit word is the selector of some state: the four fields are free. -/
theorem exists_usel_eq (w : BitVec 12) : ∃ s : State, usel s = w := by
  refine ⟨{ State.reset with
    phase := Phase.ofCode (w.extractLsb' 9 3)
    padst := PadSt.ofCode (w.extractLsb' 7 2)
    fill := if w.getLsbD 6 then 56#7 else 0#7
    rnd := w.extractLsb' 0 6 }, ?_⟩
  have hz : BitVec.ofBool (decide ((if w.getLsbD 6 then 56#7 else 0#7) = 56#7)) = w.extractLsb' 6 1 := by
    rw [BitVec.getLsbD_eq_extractLsb']
    generalize w.extractLsb' 6 1 = z
    revert z
    decide
  simp only [usel, Phase.code_ofCode, PadSt.code_ofCode, hz, selector_fields]

/-- A selector under a mask, field by field (R74). -/
theorem usel_and_eq_iff {s : State} {mp p : BitVec 3} {mq q : BitVec 2} {mz z : BitVec 1} {mr r : BitVec 6} :
    usel s &&& (mp ++ mq ++ mz ++ mr) = p ++ q ++ z ++ r ↔
      ((s.phase.code &&& mp = p ∧ s.padst.code &&& mq = q) ∧ BitVec.ofBool (decide (s.fill = 56#7)) &&& mz = z) ∧
        s.rnd &&& mr = r := by
  rw [← append_eq_append_iff, ← append_eq_append_iff, ← append_eq_append_iff, ← BitVec.and_append, ← BitVec.and_append,
    ← BitVec.and_append]
  rfl

/-! The four shapes of a mask of R75: `PHASE` alone, with `PADST`, with `PADST` and `Z`, and with `RND`. -/

section
variable {s : State} {p : Phase}

theorem usel_under_phase : usel s &&& 0xE00#12 = p.code ++ 0#2 ++ 0#1 ++ 0#6 ↔ s.phase = p := by
  refine (usel_and_eq_iff (mp := .allOnes 3) (mq := 0#2) (mz := 0#1) (mr := 0#6)).trans ?_
  simp only [BitVec.and_allOnes, BitVec.and_zero, Phase.code_inj, and_true]

theorem usel_under_padst {q : PadSt} :
    usel s &&& 0xF80#12 = p.code ++ q.code ++ 0#1 ++ 0#6 ↔ s.phase = p ∧ s.padst = q := by
  refine (usel_and_eq_iff (mp := .allOnes 3) (mq := .allOnes 2) (mz := 0#1) (mr := 0#6)).trans ?_
  simp only [BitVec.and_allOnes, BitVec.and_zero, Phase.code_inj, PadSt.code_inj, and_true]

theorem usel_under_z {q : PadSt} {z : Bool} :
    usel s &&& 0xFC0#12 = p.code ++ q.code ++ BitVec.ofBool z ++ 0#6 ↔
      (s.phase = p ∧ s.padst = q) ∧ decide (s.fill = 56#7) = z := by
  refine (usel_and_eq_iff (mp := .allOnes 3) (mq := .allOnes 2) (mz := .allOnes 1) (mr := 0#6)).trans ?_
  simp only [BitVec.and_allOnes, BitVec.and_zero, Phase.code_inj, PadSt.code_inj, BitVec.ofBool_eq_iff_eq, and_true]

theorem usel_under_rnd {r : BitVec 6} :
    usel s &&& 0xE3F#12 = p.code ++ 0#2 ++ 0#1 ++ r ↔ s.phase = p ∧ s.rnd = r := by
  refine (usel_and_eq_iff (mp := .allOnes 3) (mq := 0#2) (mz := 0#1) (mr := .allOnes 6)).trans ?_
  simp only [BitVec.and_allOnes, BitVec.and_zero, Phase.code_inj, and_true]

end

theorem roundInstr_mask (r : BitVec 6) : (roundInstr r).mask = 0xE3F#12 := by
  revert r
  decide

theorem roundInstr_pattern (r : BitVec 6) : (roundInstr r).pattern = Phase.round.code ++ 0#2 ++ 0#1 ++ r := by
  revert r
  decide

theorem roundInstr_not_command (r : BitVec 6) : Claims.IsCommand (roundInstr r) = false := by
  revert r
  decide

/-- The operations with the mask of the rounds are the entries of the round table, each at the `RND` of its match (R75). -/
theorem eq_roundInstr_of_mask {i : Instr} (h : i.mask = 0xE3F#12) : i = roundInstr (i.pattern.setWidth 6) := by
  cases i with
  | nop | init | data b | final | pad80 | padz | padsw | padlen | load | addbk => simp [Instr.mask] at h
  | _ => rfl

/-- The micro-operations: four of the padding, `LOAD`, the 64 rounds, `ADDBK` (R75). -/
theorem microOp_cases {motive : Instr → Prop} (pad80 : motive .pad80) (padz : motive .padz) (padsw : motive .padsw)
    (padlen : motive .padlen) (load : motive .load) (round : ∀ r, motive (roundInstr r)) (addbk : motive .addbk) (i : Instr)
    (h : Claims.IsCommand i = false) : motive i := by
  by_cases hm : i.mask = 0xE3F#12
  · exact eq_roundInstr_of_mask hm ▸ round _
  · cases i with
    | nop | init | data b | final => cases h
    | pad80 => exact pad80
    | padz => exact padz
    | padsw => exact padsw
    | padlen => exact padlen
    | load => exact load
    | addbk => exact addbk
    | _ => exact absurd rfl hm

/-- Which micro-operation the registers of a state select, row by row (R75). -/
inductive Selected (s : State) : Instr → Prop
  | pad80 (hp : s.phase = .pad) (hq : s.padst = .p80) : Selected s .pad80
  | padz (hp : s.phase = .pad) (hq : s.padst = .pz) (hz : s.fill ≠ 56#7) : Selected s .padz
  | padsw (hp : s.phase = .pad) (hq : s.padst = .pz) (hz : s.fill = 56#7) : Selected s .padsw
  | padlen (hp : s.phase = .pad) (hq : s.padst = .pl) : Selected s .padlen
  | load (hp : s.phase = .load) : Selected s .load
  | round (hp : s.phase = .round) : Selected s (roundInstr s.rnd)
  | addbk (hp : s.phase = .addbk) : Selected s .addbk

theorem decodeUsel_eq_ok_iff {s : State} {i : Instr} : decodeUsel (usel s) = .ok i ↔ Selected s i := by
  constructor
  · intro h
    rw [decodeUsel_usel] at h
    cases hp : s.phase <;> simp only [hp] at h
    case pad =>
      cases hq : s.padst <;> simp only [hq] at h
      · cases h
      · cases h; exact .pad80 hp hq
      · split at h
        · next hz => cases h; exact .padsw hp hq hz
        · next hz => cases h; exact .padz hp hq hz
      · cases h; exact .padlen hp hq
    case load => cases h; exact .load hp
    case round => obtain rfl := Except.ok.inj h; exact .round hp
    case addbk => cases h; exact .addbk hp
    all_goals cases h
  · rintro (⟨hp, hq⟩ | ⟨hp, hq, hz⟩ | ⟨hp, hq, hz⟩ | ⟨hp, hq⟩ | hp | hp | hp) <;> simp [decodeUsel_usel, *]

/-- A state selects a micro-operation exactly when its selector lies under the operation's row (R75). -/
theorem selected_iff_under_row {s : State} {i : Instr} :
    Selected s i ↔ Claims.IsCommand i = false ∧ usel s &&& i.mask = i.pattern := by
  constructor
  · rintro (⟨hp, hq⟩ | ⟨hp, hq, hz⟩ | ⟨hp, hq, hz⟩ | ⟨hp, hq⟩ | hp | hp | hp)
    · exact ⟨rfl, usel_under_padst.mpr ⟨hp, hq⟩⟩
    · exact ⟨rfl, (usel_under_z (z := false)).mpr ⟨⟨hp, hq⟩, decide_eq_false hz⟩⟩
    · exact ⟨rfl, (usel_under_z (z := true)).mpr ⟨⟨hp, hq⟩, decide_eq_true hz⟩⟩
    · exact ⟨rfl, usel_under_padst.mpr ⟨hp, hq⟩⟩
    · exact ⟨rfl, usel_under_phase.mpr hp⟩
    · refine ⟨roundInstr_not_command _, ?_⟩
      rw [roundInstr_mask, roundInstr_pattern]
      exact usel_under_rnd.mpr ⟨hp, rfl⟩
    · exact ⟨rfl, usel_under_phase.mpr hp⟩
  · rintro ⟨hc, hw⟩
    revert hw
    refine microOp_cases (motive := fun i => usel s &&& i.mask = i.pattern → Selected s i) ?_ ?_ ?_ ?_ ?_ ?_ ?_ i hc
    · intro hw
      obtain ⟨hp, hq⟩ := (usel_under_padst (p := .pad) (q := .p80)).mp hw
      exact .pad80 hp hq
    · intro hw
      obtain ⟨⟨hp, hq⟩, hz⟩ := (usel_under_z (p := .pad) (q := .pz) (z := false)).mp hw
      exact .padz hp hq (of_decide_eq_false hz)
    · intro hw
      obtain ⟨⟨hp, hq⟩, hz⟩ := (usel_under_z (p := .pad) (q := .pz) (z := true)).mp hw
      exact .padsw hp hq (of_decide_eq_true hz)
    · intro hw
      obtain ⟨hp, hq⟩ := (usel_under_padst (p := .pad) (q := .pl)).mp hw
      exact .padlen hp hq
    · exact fun hw => .load ((usel_under_phase (p := .load)).mp hw)
    · intro r hw
      rw [roundInstr_mask, roundInstr_pattern] at hw
      obtain ⟨hp, rfl⟩ := usel_under_rnd.mp hw
      exact .round hp
    · exact fun hw => .addbk ((usel_under_phase (p := .addbk)).mp hw)

theorem decodeUsel_padWithoutFinal_iff (s : State) :
    decodeUsel (usel s) = .error .padWithoutFinal ↔ s.phase = .pad ∧ s.padst = .none := by
  rw [decodeUsel_usel]
  cases hp : s.phase
  case pad => cases hq : s.padst <;> simp; split <;> simp
  all_goals simp

theorem decodeUsel_readyPhase_iff (s : State) : decodeUsel (usel s) = .error .readyPhase ↔ rdy s = true := by
  rw [decodeUsel_usel, rdy]
  cases hp : s.phase
  case pad => cases hq : s.padst <;> simp [Phase.ready]; split <;> simp
  all_goals simp [Phase.ready]

/-- Settles O4: every 12-bit word is the selector of a state, and the map of R75 is known on the registers of a state. -/
theorem selectorsDecodeByTheirRow : Obligations.SelectorsDecodeByTheirRow := by
  intro w
  obtain ⟨s, rfl⟩ := exists_usel_eq w
  refine ⟨fun i => decodeUsel_eq_ok_iff.trans selected_iff_under_row,
    (decodeUsel_padWithoutFinal_iff s).trans (usel_under_padst (p := .pad) (q := .none)).symm,
    (decodeUsel_readyPhase_iff s).trans ?_⟩
  rw [usel_phase, rdy_iff]
  exact or_congr (Phase.code_inj (q := .idle)).symm (or_congr (Phase.code_inj (q := .absorb)).symm
    (or_congr (Phase.code_inj (q := .done)).symm (Phase.code_inj (q := .error)).symm))

end Sys2Proof.Machine
end

section
/-! SUPPORT. The command words field by field, and the round trip of decoder and encoder over both formats (30_encoding.md
sections 2 and 3). -/

namespace Sys2Proof.Machine

theorem op_cases (op : BitVec 2) : op = 0#2 ∨ op = 1#2 ∨ op = 2#2 ∨ op = 3#2 := by
  revert op
  decide

/-- The commands by `op` and `byte` (R71, R72). -/
theorem decodeCmd_append (b : Byte) :
    decodeCmd (0#2 ++ b) = .nop ∧ decodeCmd (1#2 ++ b) = .init ∧ decodeCmd (2#2 ++ b) = .data b ∧
    decodeCmd (3#2 ++ b) = .final := by
  simp only [decodeCmd, BitVec.extractLsb'_append_eq_left, BitVec.extractLsb'_append_eq_right]
  exact ⟨rfl, rfl, rfl, rfl⟩

/-- A byte below four given bits is that byte added to, or set in, the word of those bits. -/
theorem append_zero_or_setWidth (t : BitVec 4) (b : Byte) : (t ++ 0#8 : BitVec 12) ||| b.setWidth 12 = t ++ b := by
  have hb : b.setWidth 12 = (0#4 ++ b : BitVec 12) := BitVec.setWidth_eq_append (by decide)
  rw [hb]
  exact BitVec.or_append.trans (by rw [BitVec.or_zero, BitVec.zero_or])

/-- The canonical word of `DATA b` (R73). -/
theorem encode_data (b : Byte) : encode (.data b) = 2#4 ++ b := append_zero_or_setWidth 2#4 b

/-- The same as a sum (R80). -/
theorem encode_data_eq_add (b : Byte) : encode (.data b) = 0x200#12 + b.setWidth 12 := by
  apply BitVec.eq_of_toNat_eq
  have h := b.isLt
  rw [encode_data, toNat_append_eq_add, BitVec.toNat_add, BitVec.toNat_setWidth, BitVec.toNat_ofNat, BitVec.toNat_ofNat]
  omega

/-- A command as a 12-bit word, with two zero bits above it (log entry 3). -/
theorem setWidth_op_byte (op : BitVec 2) (b : Byte) : (op ++ b : BitVec 10).setWidth 12 = op.setWidth 4 ++ b := by
  rw [BitVec.setWidth_append]
  rfl

/-- A canonical command word keeps `op`, and of `DATA` the byte (R73). -/
theorem encode_decodeCmd (v : BitVec 10) :
    encode (decodeCmd v) = v.setWidth 12 &&& ((decodeCmd v).mask ||| Claims.operandMask (decodeCmd v)) := by
  have hv : v = v.extractLsb' 8 2 ++ v.extractLsb' 0 8 := (BitVec.extractLsb'_append_extractLsb' (len := 8) (w := 2)).symm
  generalize v.extractLsb' 8 2 = op, v.extractLsb' 0 8 = b at hv
  have hop (t : BitVec 4) : t ++ 0#8 = (t ++ b) &&& (BitVec.allOnes 4 ++ 0#8) := by
    rw [BitVec.and_append, BitVec.and_allOnes, BitVec.and_zero]
  have hmask : (Instr.data b).mask ||| Claims.operandMask (.data b) = BitVec.allOnes 12 :=
    (by decide : 0xF00#12 ||| 0x0FF#12 = BitVec.allOnes 12)
  obtain ⟨h0, h1, h2, h3⟩ := decodeCmd_append b
  rw [hv, setWidth_op_byte]
  obtain rfl | rfl | rfl | rfl := op_cases op
  · rw [h0]; exact hop 0#4
  · rw [h1]; exact hop 1#4
  · rw [h2, encode_data, hmask, BitVec.and_allOnes]; rfl
  · rw [h3]; exact hop 3#4

theorem operandBits_of_not_command {i : Instr} (h : Claims.IsCommand i = false) : i.operandBits = 0#12 := by
  cases i with
  | data b => cases h
  | _ => rfl

theorem operandMask_of_not_command {i : Instr} (h : Claims.IsCommand i = false) : Claims.operandMask i = 0#12 := by
  cases i with
  | data b => cases h
  | _ => rfl

theorem encode_of_not_command {i : Instr} (h : Claims.IsCommand i = false) : encode i = i.pattern := by
  rw [encode, operandBits_of_not_command h, BitVec.or_zero]

theorem roundInstr_pattern_not_command (r : BitVec 6) : ¬ (roundInstr r).pattern.toNat < 0x400 := by
  revert r
  decide

/-- The canonical selectors lie above the command words (log entry 3). -/
theorem pattern_not_command {i : Instr} (h : Claims.IsCommand i = false) : ¬ i.pattern.toNat < 0x400 :=
  microOp_cases (motive := fun i => ¬ i.pattern.toNat < 0x400) (by decide) (by decide) (by decide) (by decide) (by decide)
    roundInstr_pattern_not_command (by decide) i h

/-- A micro-operation is decoded from every selector of its row (R75), its match among them. -/
theorem decode_pattern {i : Instr} (h : Claims.IsCommand i = false) : decode i.pattern = .ok i := by
  have hm : i.pattern &&& i.mask = i.pattern :=
    microOp_cases (motive := fun i => i.pattern &&& i.mask = i.pattern) rfl rfl rfl rfl rfl
      (fun r => by rw [roundInstr_mask]; revert r; decide) rfl i h
  rw [decode, if_neg (pattern_not_command h)]
  exact ((selectorsDecodeByTheirRow _).1 i).mpr ⟨h, hm⟩

theorem decode_encode (i : Instr) : decode (encode i) = .ok i := by
  cases h : Claims.IsCommand i with
  | false => rw [encode_of_not_command h, decode_pattern h]
  | true =>
    cases i with
    | data b =>
      rw [encode_data, show 2#4 ++ b = (2#2 ++ b : BitVec 10).setWidth 12 from (setWidth_op_byte 2#2 b).symm, decode_command,
        (decodeCmd_append b).2.2.1]
    | nop | init | final => rfl
    | _ => cases h

theorem encode_of_decode {w : BitVec 12} {i : Instr} (h : decode w = .ok i) :
    encode i = w &&& (i.mask ||| Claims.operandMask i) := by
  unfold decode at h
  split at h
  · next hw =>
    obtain rfl := Except.ok.inj h
    have hw' : (w.setWidth 10).setWidth 12 = w :=
      BitVec.eq_of_toNat_eq (by simp only [BitVec.toNat_setWidth]; omega)
    rw [encode_decodeCmd, hw']
  · obtain ⟨hc, hr⟩ := ((selectorsDecodeByTheirRow w).1 i).mp h
    rw [encode_of_not_command hc, operandMask_of_not_command hc, BitVec.or_zero, hr]

/-- Settles O3: an operation is a micro-operation, decoded by its row, or a command, decoded by its `op`. -/
theorem decodeAndEncodeAgree : Obligations.DecodeAndEncodeAgree :=
  ⟨fun i _ => decode_encode i, fun _ _ h => encode_of_decode h⟩

theorem decodeCmd_eq_ite (w : BitVec 10) :
    decodeCmd w =
      if w.extractLsb' 8 2 = 0#2 then .nop
      else if w.extractLsb' 8 2 = 1#2 then .init
      else if w.extractLsb' 8 2 = 2#2 then .data (w.extractLsb' 0 8)
      else .final := by
  unfold decodeCmd
  obtain h | h | h | h := op_cases (w.extractLsb' 8 2) <;> rw [h] <;> rfl

/-- Settles O1: the four `op` codes are all there are. -/
theorem commandWordsDecode : Obligations.CommandWordsDecode :=
  ⟨fun w => ⟨decodeCmd_eq_ite w, decode_command w⟩, rfl, rfl, rfl, encode_data_eq_add⟩

end Sys2Proof.Machine
end

section
/-! SUPPORT. The selection of a step (30_encoding.md R70, R78): what a busy core does not read, what sticks, and which of the four
kinds of step a state of the invariant takes. -/

namespace Sys2Proof.Machine

/-- While `RDY = 0` the selection reads `RST` and no other pin (R70, R333). -/
theorem selectAction_busy {s : State} {p q : Pins} (hd : rdy s = false) (hr : p.rst = q.rst) :
    selectAction p s = selectAction q s := by
  simp only [selectAction, fetchWord, hd, hr, Bool.false_and, Bool.false_eq_true, if_false]

/-- A step is a function of the selected action and the state without this step's pins (R70, R12). -/
theorem step_eq_of_selectAction {s t : State} (hu : s.tick = t.tick)
    (ha : selectAction s.pins s.tick = selectAction t.pins t.tick) : step s = step t := by
  unfold step
  rw [ha, hu]

/-- Settles O12: of the pins of a busy step only `RST` is read. -/
theorem busyCoreIgnoresTheHost : Obligations.BusyCoreIgnoresTheHost := by
  intro s p q rest hd hr
  exact ⟨step_eq_of_selectAction rfl (selectAction_busy hd hr), acceptedNow_busy hd⟩

theorem Phase.compressing_iff {p : Phase} : p.compressing = true ↔ p = .load ∨ p = .round ∨ p = .addbk := by
  cases p <;> simp [Phase.compressing]

/-- A state that is not stuck meets the items of R40, and is not in the state R78 adds to them. -/
theorem r40_of_not_stuck {s : State} (h : stuckReason s = none) : Claims.R40 s ∧ ¬ (s.phase = .addbk ∧ s.padst = .p80) := by
  obtain ⟨hf, hc, hi, hn, hp, ha, hd, hl, hm, ho, he⟩ := not_stuck h
  refine ⟨⟨⟨hf, ?_⟩, fun e => by rw [hi e]; rfl, ⟨hn, hp, fun e => ?_⟩, hl, hm, ho, fun e => by rw [he e]; rfl⟩,
    fun e => ha e.1 e.2⟩
  · rw [← Phase.compressing_iff, ← hc, ← BitVec.toNat_inj]
    rfl
  · obtain ⟨hq, h0⟩ := hd e
    exact ⟨hq, by rw [h0]; rfl⟩

/-- Settles O13: such a state is stuck. -/
theorem statesOutsideR40HaveOnlyReset : Obligations.StatesOutsideR40HaveOnlyReset := by
  intro s hs
  refine ⟨fun hr => ?_, step_reset⟩
  cases hk : stuckReason s.tick with
  | some f => exact ⟨f, step_stuck hr hk⟩
  | none =>
    obtain ⟨h40, hp80⟩ := r40_of_not_stuck (s := s) hk
    exact absurd hs (not_or.mpr ⟨not_not.mpr h40, hp80⟩)

/-- A busy state of the invariant selects a micro-operation: its PAD phase comes after `FINAL` (R40 item 3, R75). -/
theorem Inv.exists_selected {s : State} (h : Inv s) (hd : rdy s = false) : ∃ i, Selected s i := by
  cases hp : s.phase with
  | pad =>
    cases hq : s.padst with
    | none => exact absurd hq (h.padding hp)
    | p80 => exact ⟨_, .pad80 hp hq⟩
    | pz =>
      by_cases hz : s.fill = 56#7
      · exact ⟨_, .padsw hp hq hz⟩
      · exact ⟨_, .padz hp hq hz⟩
    | pl => exact ⟨_, .padlen hp hq⟩
  | load => exact ⟨_, .load hp⟩
  | round => exact ⟨_, .round hp⟩
  | addbk => exact ⟨_, .addbk hp⟩
  | idle | absorb | done | error => simp [rdy, hp, Phase.ready] at hd

/-- Settles O11: a state of the invariant is not stuck, so each clause is a case of the selection. -/
theorem stepRunsDecodedInstruction : Obligations.StepRunsDecodedInstruction := by
  intro s h
  have hs : stuckReason s.tick = none := h.tick.not_stuck
  refine ⟨step_reset, fun hr hd hc => step_idle hr hs hd hc, fun hr hd hc => step_command hr hs hd hc, fun hr hd => ?_⟩
  obtain ⟨i, hi⟩ := h.exists_selected hd
  have hu : decodeUsel (usel s) = .ok i := decodeUsel_eq_ok_iff.mpr hi
  exact ⟨i, hu, (decode_usel s hd).trans hu, step_micro hr hs hd hu⟩

end Sys2Proof.Machine
end

section
/-! SUPPORT. The table of R83 (30_encoding.md section 8): the sequencer after each case of a step. -/

namespace Sys2Proof.Machine

/-- The block-full test of `PUSH` (R104, R123). -/
theorem succ_fill_eq_64_iff {f : BitVec 7} : f + 1#7 = 64#7 ↔ f.toNat = 63 := by
  bv_omega

/-- `INIT` goes to ABSORB from every ready phase. -/
theorem nextSequencer_init {s : State} (hd : rdy s = true) : Claims.nextSequencer s (some .init) = (.absorb, .none, 0#6) := by
  obtain hp | hp | hp | hp := (rdy_iff s).mp hd <;> simp [Claims.nextSequencer, hp]

/-- In a ready phase the sequencer stays without a command, on `NOP`, and on a protocol error. -/
theorem nextSequencer_stays {s : State} {c : Option Instr} (hd : rdy s = true) (hi : c ≠ some .init)
    (ha : s.phase = .absorb → c = none ∨ c = some .nop) : Claims.nextSequencer s c = (s.phase, s.padst, s.rnd) := by
  obtain hp | hp | hp | hp := (rdy_iff s).mp hd
  · simp [Claims.nextSequencer, hp, hi]
  · obtain rfl | rfl := ha hp <;> simp [Claims.nextSequencer, hp]
  · simp [Claims.nextSequencer, hp, hi]
  · simp [Claims.nextSequencer, hp, hi]

/-- The sequencer after a step without `RESET`, by the cases of the step. -/
theorem StepEffect.sequencer {s t : State} (h : StepEffect s s.tick t) (hr : s.pins.rst = false) :
    (t.phase, t.padst, t.rnd) = Claims.nextSequencer s (acceptedNow s) := by
  cases h with
  | reset hr' => simp [hr] at hr'
  | idle _ hd hc =>
    have hn : acceptedNow s = none := acceptedNow_quiet hc
    exact (nextSequencer_stays hd (by simp [hn]) fun _ => .inl hn).symm
  | nop ha =>
    obtain ⟨-, hd, -⟩ := acceptedNow_some ha
    exact (nextSequencer_stays hd (by simp [ha]) fun _ => .inr ha).symm
  | dataProtocol b ha hp | finalProtocol ha hp =>
    obtain ⟨-, hd, -⟩ := acceptedNow_some ha
    exact (nextSequencer_stays hd (by simp [ha]) fun e => absurd e hp).symm
  | init ha =>
    obtain ⟨-, hd, -⟩ := acceptedNow_some ha
    rw [ha, nextSequencer_init hd]
    rfl
  | dataOverflow b ha hp hl => simp [Claims.nextSequencer, ha, hp, hl, Config.maxLen]
  | data b ha hp hl hf =>
    have hl' : s.len.toNat ≠ 2 ^ 61 - 1 := fun e => hl (BitVec.eq_of_toNat_eq e)
    simp only [Claims.nextSequencer, ha, hp, hl', pushed_phase, pushed_padst, pushed_rnd, tick_fill, succ_fill_eq_64_iff]
    split <;> rfl
  | final ha hp => simp [Claims.nextSequencer, ha, hp]
  | pad80 _ hp hq | padlen _ hp hq => simp [Claims.nextSequencer, hp, hq, succ_fill_eq_64_iff]
  | padz _ hp hq hz =>
    have hz' : s.fill.toNat ≠ 56 := fun e => hz (BitVec.eq_of_toNat_eq e)
    simp [Claims.nextSequencer, hp, hq, hz', succ_fill_eq_64_iff]
  | padsw _ hp hq hz => simp [Claims.nextSequencer, hp, hq, hz]
  | load _ hp => simp [Claims.nextSequencer, hp]
  | round _ hp _ hi =>
    have hi' : s.rnd.toNat ≠ 63 := fun e => hi (BitVec.eq_of_toNat_eq e)
    simp [Claims.nextSequencer, hp, hi']
  | lastRound _ hp _ hi => simp [Claims.nextSequencer, hp, hi]
  | addbkAbsorb _ hp hq | addbkPad _ hp hq | addbkDone _ hp hq => simp [Claims.nextSequencer, hp, hq]

/-- Settles O45: a reset step goes to the reset state; every other case of a step is its row of the table. -/
theorem sequencerTransitions : Obligations.SequencerTransitions := by
  intro s t _ hst
  refine ⟨fun hr => ?_, (step_effect hst).sequencer⟩
  obtain rfl := Host.Outcome.next.inj (hst.symm.trans (step_reset hr))
  rfl

end Sys2Proof.Machine
end

section
/-! SUPPORT. The invariant of the reachable states is kept by every step (10_state.md section 11): when it holds of a state in
each group of phases, and the cases of a step. -/

namespace Sys2Proof.Machine

/-- `FILL` while it counts on: no wrap-around up to a full block (R104). -/
theorem toNat_succ_fill {f : BitVec 7} (h : f.toNat ≤ 63) : (f + 1#7).toNat = f.toNat + 1 := by
  bv_omega

section
variable {s : State} (h : Inv s)
include h

/-- The invariant says nothing about the pins. -/
theorem Inv.with_inputs (l : List Pins) : Inv { s with inputs := l } := { h with }

theorem Inv.fill_le (hc : s.phase.compressing = false) : s.fill.toNat ≤ 63 := by
  have hne : s.fill ≠ 64#7 := fun e => by simp [h.fullBlock.mp e] at hc
  have := h.fillRange
  bv_omega

theorem Inv.ovf_false (hp : s.phase ≠ .error) : s.ovf = false := Bool.eq_false_iff.mpr (mt h.overflow.mp hp)

end

section
variable {t : State} (ho : t.ovf = false) (hb : Memory.wf t.buf = true)
include ho hb

theorem inv_of_absorb (hp : t.phase = .absorb) (hf : t.fill.toNat ≤ 63) (hr : t.rnd = 0#6) (hq : t.padst = .none)
    (hl : t.fill.toNat = t.len.toNat % 64) : Inv t := by
  have hne : t.fill ≠ 64#7 := by bv_omega
  constructor
  case fillRange => exact Nat.le_succ_of_le hf
  all_goals simp [*, Phase.compressing]

theorem inv_of_pad (hp : t.phase = .pad) (hf : t.fill.toNat ≤ 63) (hr : t.rnd = 0#6) (hq : t.padst ≠ .none)
    (hl : t.padst = .pl → 56 ≤ t.fill.toNat) : Inv t := by
  have hne : t.fill ≠ 64#7 := by bv_omega
  constructor
  case fillRange => omega
  case lengthField => exact fun _ e => ⟨hl e, hf⟩
  all_goals simp [*, Phase.compressing]

theorem inv_of_compressing (hc : t.phase.compressing = true) (hf : t.fill = 64#7) (hr : t.phase ≠ .round → t.rnd = 0#6)
    (hq : t.padst ≠ .p80) (hl : t.padst = .none → t.len.toNat % 64 = 0) : Inv t := by
  obtain hp | hp | hp := Phase.compressing_iff.mp hc <;> constructor <;> simp_all

/-- A pushed byte completes the block, or leaves the core in the phase it was pushed in (R104, R123). -/
theorem inv_pushed (v : Byte) {p : Phase} (hf : t.fill.toNat ≤ 63) (hr : t.rnd = 0#6) (hq : t.padst ≠ .p80)
    (hl : t.padst = .none → t.len.toNat % 64 = (t.fill.toNat + 1) % 64)
    (hi : Memory.wf (pushed v p t).buf = true → (pushed v p t).phase = p → (pushed v p t).fill.toNat = t.fill.toNat + 1 →
      t.fill.toNat + 1 ≤ 63 → Inv (pushed v p t)) : Inv (pushed v p t) := by
  have hb' : Memory.wf (pushed v p t).buf = true := Memory.wf_write _ _ _ hb hf
  by_cases h63 : t.fill.toNat = 63
  · have hfull : t.fill + 1#7 = 64#7 := succ_fill_eq_64_iff.mpr h63
    refine inv_of_compressing ho hb' (by simp [hfull, Phase.compressing]) hfull (fun _ => hr) hq fun e => ?_
    rw [pushed_len, hl e, h63]
  · exact hi hb' (by simp [succ_fill_eq_64_iff, h63]) (toNat_succ_fill hf) (by omega)

theorem inv_pushed_of_pad (v : Byte) (hf : t.fill.toNat ≤ 63) (hr : t.rnd = 0#6)
    (hq : t.padst = .pz ∨ (t.padst = .pl ∧ 56 ≤ t.fill.toNat)) : Inv (pushed v .pad t) := by
  have hn : t.padst ≠ .p80 ∧ t.padst ≠ .none := by obtain hq | ⟨hq, -⟩ := hq <;> simp [hq]
  refine inv_pushed ho hb v hf hr hn.1 (fun e => absurd e hn.2) fun hb' hp hs hle => ?_
  refine inv_of_pad ho hb' hp (hs ▸ hle) hr hn.2 fun e => ?_
  obtain hz | ⟨-, hl⟩ := hq
  · exact absurd (e.symm.trans hz) (by decide)
  · omega

theorem inv_pushed_of_absorb (v : Byte) (hf : t.fill.toNat ≤ 63) (hr : t.rnd = 0#6) (hq : t.padst = .none)
    (hl : t.len.toNat % 64 = (t.fill.toNat + 1) % 64) : Inv (pushed v .absorb t) := by
  refine inv_pushed ho hb v hf hr (by simp [hq]) (fun _ => hl) fun hb' hp hs hle => ?_
  refine inv_of_absorb ho hb' hp (hs ▸ hle) hr hq ?_
  rw [hs, pushed_len, hl]
  omega

end

theorem inv_resetCore (s : State) : Inv (resetCore s) := by
  constructor <;> simp [Phase.compressing, Memory.wf, Memory.wfFrom]

theorem inv_opened {s : State} (h : Inv s) : Inv (opened s) :=
  inv_of_absorb rfl h.buffer rfl (Nat.zero_le _) rfl rfl rfl

theorem inv_raise_protocol {s : State} (h : Inv s) : Inv (raise .protocol s) := { h with }

theorem inv_raise_overflow {s : State} (h : Inv s) (hp : s.phase = .absorb) (hl : s.len = Config.maxLen) :
    Inv (raise .overflow s) := by
  have hf := h.fill_le (by rw [hp]; rfl)
  have hne : s.fill ≠ 64#7 := by bv_omega
  have hr := h.roundIndex (by simp [hp])
  have hq := h.noPadding (.inr (.inl hp))
  have hb := h.buffer
  constructor
  case fillRange => exact Nat.le_succ_of_le hf
  all_goals simp [*, Phase.compressing]

/-- The feed-forward empties the block and goes back along the return link (R145). -/
theorem inv_addedBack {s : State} (h : Inv s) (hp : s.phase = .addbk) {p : Phase}
    (hq : s.padst = .none ∧ p = .absorb ∨ s.padst = .pz ∧ p = .pad ∨ s.padst = .pl ∧ p = .done) : Inv (addedBack p s) := by
  have ho : s.ovf = false := h.ovf_false (by simp [hp])
  have hr : s.rnd = 0#6 := h.roundIndex (by simp [hp])
  have hb := h.buffer
  obtain ⟨hq, rfl⟩ | ⟨hq, rfl⟩ | ⟨hq, rfl⟩ := hq
  · exact inv_of_absorb ho hb rfl (Nat.zero_le _) hr hq (h.wholeBlocks (by rw [hp]; rfl) hq).symm
  · exact inv_of_pad ho hb rfl (Nat.zero_le _) hr (by simp [hq]) (by simp [hq])
  · constructor <;> simp [*, Phase.compressing]

/-- Every case of a step keeps the invariant. -/
theorem Inv.effect {s t : State} (h : Inv s) (he : StepEffect s s.tick t) : Inv t := by
  have hb := h.buffer
  cases he with
  | reset => exact inv_resetCore _
  | idle | nop => exact h.tick
  | init => exact inv_opened h.tick
  | dataProtocol | finalProtocol => exact inv_raise_protocol h.tick
  | dataOverflow b ha hp hl => exact inv_raise_overflow h.tick hp hl
  | data b ha hp hl hf =>
    refine inv_pushed_of_absorb (t := { s.tick with len := s.len + 1#61 }) (h.ovf_false (by simp [hp])) hb b hf
      (h.roundIndex (by simp [hp])) (h.noPadding (.inr (.inl hp))) ?_
    have hm := h.fillOfLength hp
    have hs : (s.len + 1#61).toNat = s.len.toNat + 1 := toNat_succ_of_ne_maxLen hl
    simp only [tick_fill, hs]
    omega
  | final ha hp =>
    exact inv_of_pad (h.ovf_false (by simp [hp])) hb rfl (h.fill_le (by rw [hp]; rfl)) (h.roundIndex (by simp [hp]))
      (by simp) (by simp)
  | pad80 _ hp hq hf =>
    exact inv_pushed_of_pad (t := { s.tick with padst := .pz }) (h.ovf_false (by simp [hp])) hb _ hf
      (h.roundIndex (by simp [hp])) (.inl rfl)
  | padz _ hp hq hz hf =>
    exact inv_pushed_of_pad (t := s.tick) (h.ovf_false (by simp [hp])) hb _ hf (h.roundIndex (by simp [hp])) (.inl hq)
  | padlen _ hp hq hl hf =>
    exact inv_pushed_of_pad (t := s.tick) (h.ovf_false (by simp [hp])) hb _ hf (h.roundIndex (by simp [hp]))
      (.inr ⟨hq, hl⟩)
  | padsw _ hp hq hz =>
    exact inv_of_pad (h.ovf_false (by simp [hp])) hb hp (by simp [hz]) (h.roundIndex (by simp [hp])) (by simp) (by simp [hz])
  | load _ hp hf | round _ hp hf | lastRound _ hp hf =>
    have hc : s.phase.compressing = true := by rw [hp]; rfl
    exact inv_of_compressing (h.ovf_false (by simp [hp])) hb (by simp [hp, Phase.compressing]) hf (by simp [hp])
      (h.markFirst hc) (h.wholeBlocks hc)
  | addbkAbsorb _ hp hq => exact inv_addedBack h.tick hp (.inl ⟨hq, rfl⟩)
  | addbkPad _ hp hq => exact inv_addedBack h.tick hp (.inr (.inl ⟨hq, rfl⟩))
  | addbkDone _ hp hq => exact inv_addedBack h.tick hp (.inr (.inr ⟨hq, rfl⟩))

end Sys2Proof.Machine
end

section
/-! SUPPORT. The wait of a busy core (70_reset_and_hazards.md R339, R341): a state of the invariant has a step, each step without
`RESET` is one of the busy steps to go, and there are at most 205 of them. -/

namespace Sys2Proof.Machine

/-- A busy state of the invariant has a step: the micro-operation it selects acts within its domain (R78). -/
theorem Inv.exists_busy_effect {s : State} (h : Inv s) (hd : rdy s = false) (hr : s.pins.rst = false) :
    ∃ t, StepEffect s s.tick t := by
  obtain ⟨i, hi⟩ := h.exists_selected hd
  have hle (hp : s.phase = .pad) : s.fill.toNat ≤ 63 := h.fill_le (by rw [hp]; rfl)
  cases hi with
  | pad80 hp hq => exact ⟨_, .pad80 hr hp hq (hle hp)⟩
  | padz hp hq hz => exact ⟨_, .padz hr hp hq hz (hle hp)⟩
  | padsw hp hq hz => exact ⟨_, .padsw hr hp hq hz⟩
  | padlen hp hq => exact ⟨_, .padlen hr hp hq (h.lengthField hp hq).1 (hle hp)⟩
  | load hp => exact ⟨_, .load hr hp (h.fullBlock.mpr (by rw [hp]; rfl))⟩
  | round hp =>
    have hf : s.fill = 64#7 := h.fullBlock.mpr (by rw [hp]; rfl)
    obtain ⟨f, g, k, n, he⟩ := exec_round s.rnd
    by_cases hi : s.rnd = 63#6
    · exact ⟨_, .lastRound hr hp hf hi f g k n fun v => (he v).trans (if_pos hi)⟩
    · exact ⟨_, .round hr hp hf hi f g k n fun v => (he v).trans (if_neg hi)⟩
  | addbk hp =>
    have hc : s.phase.compressing = true := by rw [hp]; rfl
    have hf : s.fill = 64#7 := h.fullBlock.mpr hc
    cases hq : s.padst with
    | none => exact ⟨_, .addbkAbsorb hr hp hq hf⟩
    | p80 => exact absurd hq (h.markFirst hc)
    | pz => exact ⟨_, .addbkPad hr hp hq hf⟩
    | pl => exact ⟨_, .addbkDone hr hp hq hf⟩

section
variable {s : State}

theorem busySteps_ready (hd : rdy s = true) : busySteps s = 0 := by
  obtain hp | hp | hp | hp := (rdy_iff s).mp hd <;> simp only [busySteps, hp]

theorem busySteps_p80 (hp : s.phase = .pad) (hq : s.padst = .p80) :
    busySteps s = 1 + if s.fill.toNat = 63 then compressionSteps + zeroBlockSteps else zeroSteps (s.fill.toNat + 1) := by
  simp only [busySteps, hp, hq]

theorem busySteps_pz (hp : s.phase = .pad) (hq : s.padst = .pz) : busySteps s = zeroSteps s.fill.toNat := by
  simp only [busySteps, hp, hq]

theorem busySteps_pl (hp : s.phase = .pad) (hq : s.padst = .pl) :
    busySteps s = (64 - s.fill.toNat) + compressionSteps := by
  simp only [busySteps, hp, hq]

theorem busySteps_load (hp : s.phase = .load) : busySteps s = compressionSteps + afterBlock s.padst := by
  simp only [busySteps, hp]

theorem busySteps_round (hp : s.phase = .round) : busySteps s = (64 - s.rnd.toNat) + 1 + afterBlock s.padst := by
  simp only [busySteps, hp]

theorem busySteps_addbk (hp : s.phase = .addbk) : busySteps s = 1 + afterBlock s.padst := by
  simp only [busySteps, hp]

/-- After a zero byte or the mark, pushed at `FILL`: the zeros go on, or the full block is compressed first. -/
theorem busySteps_pushed_pz (v : Byte) (hq : s.padst = .pz) (hf : s.fill.toNat ≤ 63) :
    busySteps (pushed v .pad s) =
      if s.fill.toNat = 63 then compressionSteps + zeroBlockSteps else zeroSteps (s.fill.toNat + 1) := by
  split
  · next h63 =>
    rw [busySteps_load (by simp [succ_fill_eq_64_iff, h63]), pushed_padst, hq]
    rfl
  · next h63 =>
    have hp : (pushed v .pad s).phase = .pad := by simp [succ_fill_eq_64_iff, h63]
    rw [busySteps_pz hp hq, pushed_fill, toNat_succ_fill hf]

/-- After a length byte, pushed at `FILL`. -/
theorem busySteps_pushed_pl (v : Byte) (hq : s.padst = .pl) (hf : s.fill.toNat ≤ 63) :
    busySteps (pushed v .pad s) = (63 - s.fill.toNat) + compressionSteps := by
  by_cases h63 : s.fill.toNat = 63
  · rw [busySteps_load (by simp [succ_fill_eq_64_iff, h63]), pushed_padst, hq, h63]
    rfl
  · have hp : (pushed v .pad s).phase = .pad := by simp [succ_fill_eq_64_iff, h63]
    rw [busySteps_pl hp hq, pushed_fill, toNat_succ_fill hf]
    omega

end

/-- A zero byte is one step of the zeros (R339). -/
theorem zeroSteps_eq {f : Nat} (hf : f ≤ 63) (hz : f ≠ 56) :
    zeroSteps f = (if f = 63 then compressionSteps + zeroBlockSteps else zeroSteps (f + 1)) + 1 := by
  obtain hlt | hgt := Nat.lt_or_gt_of_ne hz
  · rw [if_neg (by omega), zeroSteps, if_pos (by omega), zeroSteps, if_pos (by omega)]
    omega
  · by_cases h63 : f = 63
    · subst h63
      rfl
    · rw [if_neg h63, zeroSteps, if_neg (by omega), zeroSteps, if_neg (by omega)]
      omega

/-- Every step of a busy core without `RESET` is one of the busy steps to go (R339). -/
theorem StepEffect.busySteps_eq {s t : State} (he : StepEffect s s.tick t) (hd : rdy s = false) (hr : s.pins.rst = false) :
    busySteps s = busySteps t + 1 := by
  cases he with
  | reset hr' => simp [hr] at hr'
  | idle _ hd' => simp [hd] at hd'
  | nop ha | init ha | dataProtocol _ ha | dataOverflow _ ha | data _ ha | finalProtocol ha | final ha =>
    simp [acceptedNow_busy hd] at ha
  | pad80 _ hp hq hf =>
    rw [busySteps_p80 hp hq, busySteps_pushed_pz (s := { s.tick with padst := .pz }) _ rfl hf, Nat.add_comm]
    rfl
  | padz _ hp hq hz hf =>
    rw [busySteps_pz hp hq, busySteps_pushed_pz (s := s.tick) _ hq hf]
    exact zeroSteps_eq hf fun e => hz (BitVec.eq_of_toNat_eq e)
  | padsw _ hp hq hz =>
    rw [busySteps_pz hp hq, busySteps_pl (s := { s.tick with padst := .pl }) hp rfl, tick_fill, hz]
    rfl
  | padlen _ hp hq _ hf =>
    rw [busySteps_pl hp hq, busySteps_pushed_pl (s := s.tick) _ hq hf, tick_fill]
    omega
  | load _ hp =>
    rw [busySteps_load hp, busySteps_round rfl, tick_padst, Nat.add_right_comm]
    rfl
  | round _ hp _ hi f g k n =>
    have hs : (s.rnd + 1#6).toNat = s.rnd.toNat + 1 := by bv_omega
    have hlt := s.rnd.isLt
    rw [busySteps_round hp,
      busySteps_round (s := { s.tick with w := mix f k n s.w (blockWord s.buf g), rnd := s.rnd + 1#6 }) hp, hs, tick_padst]
    omega
  | lastRound _ hp _ hi =>
    rw [busySteps_round hp, busySteps_addbk rfl, hi, tick_padst, Nat.add_right_comm]
    rfl
  | addbkAbsorb _ hp hq | addbkDone _ hp hq =>
    rw [busySteps_addbk hp, hq]
    rfl
  | addbkPad _ hp hq =>
    rw [busySteps_addbk hp, hq, busySteps_pz (s := addedBack .pad s.tick) rfl hq]
    rfl

theorem zeroSteps_le {f : Nat} (hf : f ≤ 63) : zeroSteps f ≤ 204 := by
  simp only [zeroSteps, zeroBlockSteps, compressionSteps]
  split <;> omega

theorem afterBlock_le (q : PadSt) : afterBlock q ≤ 131 := by
  cases q <;> decide

/-- The bound of R341. -/
theorem Inv.busySteps_le {s : State} (h : Inv s) : busySteps s ≤ 205 := by
  have ha := afterBlock_le s.padst
  have hcs : compressionSteps = 66 := rfl
  cases hp : s.phase with
  | idle | absorb | done | error =>
    rw [busySteps_ready (by simp [rdy, hp, Phase.ready])]
    omega
  | pad =>
    have hf : s.fill.toNat ≤ 63 := h.fill_le (by rw [hp]; rfl)
    cases hq : s.padst with
    | none => exact absurd hq (h.padding hp)
    | p80 =>
      rw [busySteps_p80 hp hq]
      split
      · decide
      · have := zeroSteps_le (f := s.fill.toNat + 1) (by omega)
        omega
    | pz =>
      rw [busySteps_pz hp hq]
      exact Nat.le_succ_of_le (zeroSteps_le hf)
    | pl =>
      rw [busySteps_pl hp hq]
      omega
  | load =>
    rw [busySteps_load hp]
    omega
  | round =>
    rw [busySteps_round hp]
    omega
  | addbk =>
    rw [busySteps_addbk hp]
    omega

/-- One busy step: it is taken, it keeps the invariant, and one fewer is to go (R341). -/
theorem Inv.busy_step {s : State} (h : Inv s) (hd : rdy s = false) (hr : s.pins.rst = false) :
    ∃ t, step s = .next t ∧ Inv t ∧ busySteps s = busySteps t + 1 := by
  obtain ⟨t, he⟩ := h.exists_busy_effect hd hr
  exact ⟨t, he.step_eq fun _ => h.tick.not_stuck, h.effect he, he.busySteps_eq hd hr⟩

end Sys2Proof.Machine
end

section
/-! SUPPORT. The host of R343: a held command is accepted in the first ready state (70_reset_and_hazards.md R333), and what the
lines of the textual form stand for (30_encoding.md R80, R81). -/

namespace Sys2Proof.Machine

/-- A command presented to a ready core is accepted by the first step. -/
theorem present_of_ready {s : State} (hd : rdy s = true) (c : BitVec 10) (n : Nat) :
    present c (n + 1) s = stepWith (Pins.command c) s := by
  rw [present]
  cases stepWith (Pins.command c) s with
  | next t => exact if_pos hd
  | fault f => rfl
  | refused r => rfl

/-- While the core is busy, the host that waits and the host that presents a command see the same steps (R333). -/
theorem stepWith_busy {s : State} (hd : rdy s = false) (c : BitVec 10) :
    stepWith (Pins.command c) s = stepWith Pins.quiet s :=
  (busyCoreIgnoresTheHost s (Pins.command c) Pins.quiet [] hd rfl).1

/-- A ready state of the invariant executes the presented command at once (R70). -/
theorem Inv.present_ready {s : State} (h : Inv s) (hd : rdy s = true) (c : BitVec 10) (n : Nat) :
    present c (n + 1) s = exec (decodeCmd c) { s with inputs := [] } :=
  (present_of_ready hd c n).trans
    (step_command (s := { s with inputs := [Pins.command c] }) rfl (h.with_inputs []).not_stuck hd rfl)

/-- A busy state of the invariant takes the same step whether the host waits or presents a command (R333). -/
theorem Inv.busy_stepWith {s : State} (h : Inv s) (hd : rdy s = false) (c : BitVec 10) :
    ∃ t, stepWith Pins.quiet s = .next t ∧ stepWith (Pins.command c) s = .next t ∧ Inv t ∧
      busySteps s = busySteps t + 1 := by
  obtain ⟨t, ht, hi, hb⟩ := (h.with_inputs [Pins.quiet]).busy_step hd rfl
  exact ⟨t, ht, (stepWith_busy hd c).trans ht, hi, hb⟩

/-- Waiting and presenting together: the command is executed on the state the wait ends in. -/
theorem Inv.present_settle (c : BitVec 10) (n : Nat) {s : State} (h : Inv s) (hn : busySteps s ≤ n) :
    ∃ u, settle n s = .next u ∧ rdy u = true ∧ present c (n + 1) s = exec (decodeCmd c) { u with inputs := [] } := by
  induction n generalizing s with
  | zero =>
    cases hd : rdy s with
    | true => exact ⟨s, rfl, hd, h.present_ready hd c 0⟩
    | false =>
      obtain ⟨t, -, -, -, hb⟩ := h.busy_stepWith hd c
      omega
  | succ n ih =>
    cases hd : rdy s with
    | true => exact ⟨s, if_pos hd, hd, h.present_ready hd c (n + 1)⟩
    | false =>
      obtain ⟨t, hq, hc, hi, hb⟩ := h.busy_stepWith hd c
      obtain ⟨u, hu, hr, hp⟩ := ih hi (by omega)
      refine ⟨u, ?_, hr, ?_⟩
      · simpa [settle, hd, hq] using hu
      · rw [present, hc]
        simpa [hd] using hp

theorem commandWord_data (b : Byte) : commandWord (.data b) = 0x200#10 + b.setWidth 10 := by
  rw [commandWord, encode_data_eq_add, BitVec.setWidth_add _ _ (by decide), BitVec.setWidth_setWidth_of_le _ (by decide)]
  rfl

/-- The word of a `DATA` line whose operand has the value `n` (R80). -/
theorem dataAct_ofNat {n : Nat} (hn : n < 256) : dataAct (BitVec.ofNat 8 n) = .command (0x200#10 + BitVec.ofNat 10 n) := by
  have hb : (BitVec.ofNat 8 n).setWidth 10 = BitVec.ofNat 10 n := by
    apply BitVec.eq_of_toNat_eq
    simp only [BitVec.toNat_setWidth, BitVec.toNat_ofNat]
    omega
  rw [dataAct, commandWord_data, hb]

/-- With no pins to come, `n` steps with `CV = 0` are a run (log entry 1). -/
theorem idleSteps_eq_run (n : Nat) {s : State} (h : s.inputs = []) : idleSteps n s = run n s := by
  induction n generalizing s with
  | zero => rfl
  | succ n ih =>
    rw [idleSteps, stepWith_quiet h]
    cases hst : step s with
    | next t =>
      have ht : t.inputs = [] := by rw [step_inputs hst, h]; rfl
      exact (ih ht).trans (run_succ_next n hst).symm
    | fault f => exact (run_succ_fault n hst).symm
    | refused r => exact (run_succ_refused n hst).symm

/-- The text of `MSG` is one `DATA` per character (R81). -/
theorem expandLine_msg {l : List Char} (hl : l.all ascii = true) :
    expandLine (.msg l) = l.map fun c => .command (0x200#10 + BitVec.ofNat 10 c.toNat) := by
  refine List.map_congr_left fun c hc => dataAct_ofNat ?_
  have hle : c.toNat ≤ 0x7F := of_decide_eq_true (List.all_eq_true.mp hl c hc)
  omega

/-- The line `.reset` leaves the reset state, whatever the state before (R81, R330). -/
theorem act_reset (s : State) : act .reset s = .next State.reset :=
  step_reset (s := { s with inputs := [⟨true, false, 0#10⟩] }) rfl

/-- Settles O59: the host that waits and the host that presents a command see the same busy steps; the lines are read off the
words of their commands. -/
theorem heldCommandIsAcceptedOnce : Obligations.HeldCommandIsAcceptedOnce := by
  refine ⟨fun c s h => h.present_settle c 205 h.busySteps_le, rfl, rfl, rfl, fun n hn => ?_, fun c hc => ?_,
    fun l hl => expandLine_msg hl, fun l => rfl, ⟨rfl, act_reset⟩, fun n => ⟨rfl, fun s => ?_⟩⟩
  · exact ⟨congrArg ([·]) (dataAct_ofNat hn), congrArg ([·]) (dataAct_ofNat hn)⟩
  · have hle : c.toNat ≤ 0x7E := of_decide_eq_true (Bool.and_eq_true_iff.mp hc).2
    exact congrArg ([·]) (dataAct_ofNat (by omega))
  · exact idleSteps_eq_run (n + 1) (s := { s with inputs := [] }) rfl

end Sys2Proof.Machine
end

section
/-! SUPPORT. The operations of the Preprocessor (41_preprocessor.md sections 3 and 4): the words that select them, what `PUSH`
leaves, and the length bytes. -/

namespace Sys2Proof.Machine

/-- Every word of a micro-operation's row decodes to it: the words of a row lie above the command words (R75, log entry 3). -/
theorem selects_row (i : Instr) (h : Claims.IsCommand i = false) : Claims.Selects i.mask i.pattern i := by
  intro w hw
  have hle : i.pattern.toNat ≤ w.toNat := by
    rw [← hw, BitVec.toNat_and]
    exact Nat.and_le_left
  rw [decode, if_neg fun hlt => pattern_not_command h (hle.trans_lt hlt)]
  exact ((selectorsDecodeByTheirRow w).1 i).mpr ⟨h, hw⟩

/-- The command of a word with a given `op` field (R72). -/
theorem decodeCmd_of_op {w : BitVec 10} {op : BitVec 2} (h : w.extractLsb' 8 2 = op) :
    decodeCmd w =
      if op = 0#2 then .nop else if op = 1#2 then .init else if op = 2#2 then .data (w.extractLsb' 0 8) else .final :=
  h ▸ decodeCmd_eq_ite w

/-- What `PUSH` leaves, in the words of the statements (R104). -/
theorem pushedByte_pushed (v : Byte) (p : Phase) {s : State} (hb : Memory.wf s.buf = true) (hf : s.fill.toNat ≤ 63) :
    Claims.PushedByte v p s (pushed v p s) := by
  refine ⟨rfl, toNat_succ_fill hf, ?_, fun a => Memory.read_write _ _ _ _ hb⟩
  simp only [pushed_phase, succ_fill_eq_64_iff]

theorem eq_maxLen_iff {l : BitVec 61} : l = Config.maxLen ↔ l.toNat = 2 ^ 61 - 1 := BitVec.toNat_inj.symm

/-- Settles O14: `NOP` answers the state it is given. -/
theorem nopChangesNothing : Obligations.NopChangesNothing :=
  ⟨fun _ => rfl, fun _ => decodeCmd_of_op, rfl⟩

/-- Settles O15: `INIT` answers `opened`. -/
theorem initOpensAMessage : Obligations.InitOpensAMessage :=
  ⟨fun _ => rfl, fun _ => decodeCmd_of_op, rfl⟩

/-- Settles O16: the phase test, the length test, then `PUSH` with the byte counted. -/
theorem dataAppendsAByte : Obligations.DataAppendsAByte := by
  refine ⟨fun b s hb hf => ⟨fun hp => if_pos hp, fun hp hl => ?_, fun hp hl => ?_⟩, encode_data_eq_add,
    fun _ => decodeCmd_of_op⟩
  · exact (if_neg (not_not.mpr hp)).trans (if_pos (eq_maxLen_iff.mpr hl))
  · have hne : s.len ≠ Config.maxLen := mt eq_maxLen_iff.mp hl
    exact ⟨_, (execData_eq_push b hp hne).trans (push_eq hf), toNat_succ_of_ne_maxLen hne,
      pushedByte_pushed b .absorb hb hf⟩

/-- Settles O19: the phase test of `FINAL`. -/
theorem finalStartsThePadding : Obligations.FinalStartsThePadding :=
  ⟨fun _ hp => ⟨if_neg (not_not.mpr hp), rfl⟩, fun _ hp => if_pos hp, fun _ => decodeCmd_of_op, rfl⟩

/-- Settles O20: `PUSH` of the mark. -/
theorem pad80EmitsTheMark : Obligations.Pad80EmitsTheMark :=
  ⟨fun _ hb hf => ⟨_, push_eq hf, pushedByte_pushed _ _ hb hf⟩, selects_row .pad80 rfl⟩

/-- Settles O21: `PUSH` of a zero byte. -/
theorem padzEmitsAZero : Obligations.PadzEmitsAZero :=
  ⟨fun _ hb hf => ⟨_, push_eq hf, pushedByte_pushed _ _ hb hf⟩, selects_row .padz rfl⟩

/-- Settles O22: `PADSW` writes `PADST` only. -/
theorem padswSwitches : Obligations.PadswSwitches := ⟨fun _ => rfl, selects_row .padsw rfl⟩

/-- `BITLEN` is eight times `LEN` (R27). -/
theorem toNat_bitLength (s : State) : (bitLength s).toNat = 8 * s.len.toNat := toNat_append_eq_add s.len 0#3

/-- Byte `k` of a 64-bit number (R10). -/
theorem toNat_byteOf64 (v : BitVec 64) (k : Nat) : (byteOf64 v k).toNat = v.toNat / 256 ^ k % 256 := by
  rw [byteOf64, BitVec.extractLsb'_toNat, Nat.shiftRight_eq_div_pow, Nat.pow_mul]

theorem toNat_lengthByte (s : State) (k : Nat) : (lengthByte s k).toNat = 8 * s.len.toNat / 256 ^ k % 256 := by
  rw [lengthByte, toNat_byteOf64, toNat_bitLength]

/-- Settles O24: the three zero bits of `BITLEN` lie in byte 0, below `LEN[4:0]`; the other bytes are bits of `LEN` alone. -/
theorem lengthBytesAreTheBitLength : Obligations.LengthBytesAreTheBitLength := by
  intro s k hk
  have hlt := s.len.isLt
  refine ⟨by omega, toNat_bitLength s, toNat_lengthByte s k, ?_, fun h1 => ?_⟩
  · apply BitVec.eq_of_toNat_eq
    rw [toNat_lengthByte, toNat_append_eq_add, BitVec.extractLsb'_toNat, BitVec.toNat_ofNat, Nat.shiftRight_zero]
    omega
  · exact BitVec.extractLsb'_append_eq_of_le (by omega)

/-- `PADLEN` within its domain is a `PUSH` of a length byte (R112). -/
theorem execPadlen_eq_push {s : State} (h : 56 ≤ s.fill.toNat ∧ s.fill.toNat ≤ 63) :
    execPadlen s = push (lengthByte s (s.fill.toNat - 56)) .pad s := by
  have hk : lengthIndex s = some (s.fill.toNat - 56) := if_pos h
  simp only [execPadlen, hk]

/-- Settles O23: `PUSH` of the length byte at `FILL - 56`. -/
theorem padlenEmitsALengthByte : Obligations.PadlenEmitsALengthByte := by
  refine ⟨fun s hb hl hf => ⟨_, (execPadlen_eq_push ⟨hl, hf⟩).trans (push_eq hf), ?_⟩, selects_row .padlen rfl⟩
  have hv : lengthByte s (s.fill.toNat - 56) = BitVec.ofNat 8 (8 * s.len.toNat / 256 ^ (s.fill.toNat - 56)) :=
    BitVec.eq_of_toNat_eq (toNat_lengthByte s _)
  exact hv ▸ pushedByte_pushed _ _ hb hf

end Sys2Proof.Machine
end

section
/-! SUPPORT. The padded message (41_preprocessor.md R100 to R103): its length, its four parts, and that each of its blocks has a
chaining value. -/

namespace Sys2Proof.Machine

theorem zeroCount_le (n : Nat) : zeroCount n ≤ 63 := by
  unfold zeroCount
  omega

/-- The zeros reach byte 56 of a block (R100). -/
theorem add_zeroCount_mod (n : Nat) : (n + 1 + zeroCount n) % 64 = 56 := by
  unfold zeroCount
  omega

theorem length_le64 (v : BitVec 64) : (le64 v).length = 8 := rfl

theorem length_before_le64 (m : List Byte) :
    (m ++ [0x80#8] ++ List.replicate (zeroCount m.length) 0x00#8).length = m.length + 1 + zeroCount m.length := by
  rw [List.length_append, List.length_append, List.length_replicate, List.length_singleton]

theorem length_paddedBytes (m : List Byte) : (paddedBytes m).length = m.length + 1 + zeroCount m.length + 8 := by
  rw [paddedBytes, List.length_append, length_before_le64, length_le64]

/-- The number of blocks of a padded message (R102 e). -/
theorem length_paddedBytes_eq_blockCount (m : List Byte) : (paddedBytes m).length = 64 * blockCount m.length := by
  have hz := zeroCount_le m.length
  have hm := add_zeroCount_mod m.length
  rw [length_paddedBytes, blockCount]
  omega

theorem length_paddedBytes_mod (m : List Byte) : (paddedBytes m).length % 64 = 0 := by
  rw [length_paddedBytes_eq_blockCount, Nat.mul_mod_right]

theorem length_paddedBytes_div (m : List Byte) : (paddedBytes m).length / 64 = blockCount m.length := by
  rw [length_paddedBytes_eq_blockCount, Nat.mul_div_cancel_left _ (by decide)]

section
variable {m : List Byte} {i : Nat}

/-- The message bytes of the padded message. -/
theorem paddedBytes_getElem?_message (h : i < m.length) : (paddedBytes m)[i]? = m[i]? := by
  simp only [paddedBytes, List.append_assoc]
  exact List.getElem?_append_left h

theorem paddedBytes_getElem?_mark : (paddedBytes m)[m.length]? = some 0x80#8 := by
  simp [paddedBytes]

theorem paddedBytes_getElem?_zero (h1 : m.length < i) (h2 : i < m.length + 1 + zeroCount m.length) :
    (paddedBytes m)[i]? = some 0x00#8 := by
  rw [paddedBytes, List.getElem?_append_left (by rwa [length_before_le64]), List.getElem?_append_right (by simpa using h1),
    List.getElem?_replicate, List.length_append, List.length_singleton, if_pos (by omega)]

theorem paddedBytes_getElem?_length {k : Nat} (h : k < 8) :
    (paddedBytes m)[m.length + 1 + zeroCount m.length + k]? = some (byteOf64 (BitVec.ofNat 64 (8 * m.length)) k) := by
  rw [paddedBytes, List.getElem?_append_right (by rw [length_before_le64]; omega), length_before_le64, Nat.add_sub_cancel_left,
    le64, List.getElem?_map, List.getElem?_range h, Option.map_some]

end

theorem pad_eq_ok {m : List Byte} (h : m.length < 2 ^ 61) : pad m = .ok (paddedBytes m) := if_pos h

theorem pad_eq_error {m : List Byte} (h : 2 ^ 61 ≤ m.length) : pad m = .error .overflowError := if_neg (Nat.not_lt.mpr h)

/-- Settles O54: the parts of the padded message one after another, and the arithmetic of their lengths. -/
theorem paddingShape : Obligations.PaddingShape := by
  intro m hm
  have hz := zeroCount_le m.length
  have hmod := add_zeroCount_mod m.length
  refine ⟨pad_eq_ok hm, length_paddedBytes m, length_paddedBytes_mod m, hmod, ?_, ?_, ?_, ?_, length_paddedBytes_div m,
    by omega, fun h => by omega⟩
  · rw [length_paddedBytes, Nat.add_sub_cancel, paddedBytes]
    exact List.drop_left' (length_before_le64 m)
  · simp only [paddedBytes, List.append_assoc]
    exact List.take_left' rfl
  · rw [List.getD_eq_getElem?_getD, paddedBytes_getElem?_mark, Option.getD_some]
  · rw [paddedBytes, List.append_assoc (m ++ _), List.drop_left' (by simp)]
    exact List.take_left' (by simp)

/-- Every block up to the end of a whole number of blocks has a chaining value (R143). -/
theorem exists_chainBlocks {p : List Byte} (hp : p.length % 64 = 0) {n : Nat} (hn : n ≤ p.length / 64) :
    ∃ h, chainBlocks p n = some h := by
  induction n with
  | zero => exact ⟨_, rfl⟩
  | succ n ih =>
    obtain ⟨h, hh⟩ := ih (Nat.le_of_succ_le hn)
    obtain ⟨q, hq⟩ := block_inside hp hn
    exact ⟨_, chainBlocks_succ.mpr ⟨h, q, hh, hq, rfl⟩⟩

theorem chain_eq {m : List Byte} (h : m.length < 2 ^ 61) :
    chain m = chainBlocks (paddedBytes m) (blockCount m.length) := by
  rw [chain, pad_eq_ok h, ← length_paddedBytes_div]

theorem md5_eq_ok {m : List Byte} {q : Quad} (h : chain m = some q) : md5 m = .ok (digest q) := by
  rw [md5, h]

/-- Settles O55: `chain` has no value where `pad` fails, and has one wherever it succeeds. -/
theorem oversizedMessagesFail : Obligations.OversizedMessagesFail := by
  intro m
  refine ⟨fun h => ⟨pad_eq_error h, ?_⟩, fun h => ?_⟩
  · have hc : chain m = none := by rw [chain, pad_eq_error h]
    rw [md5, hc]
  · obtain ⟨q, hq⟩ := exists_chainBlocks (length_paddedBytes_mod m) (length_paddedBytes_div m).ge
    exact ⟨_, digest q, pad_eq_ok h, md5_eq_ok ((chain_eq h).trans hq), rfl⟩

end Sys2Proof.Machine
end

section
/-! SUPPORT. An accepted `INIT` makes any two states alike (41_preprocessor.md R106, 10_state.md R37). -/

namespace Sys2Proof.Machine

/-- Alike states stay alike over a run. -/
theorem Alike.run {s t : State} (a : Alike s t) {n : Nat} {s' : State} (h : run n s = .next s') :
    ∃ t', Machine.run n t = .next t' ∧ Alike s' t' := by
  induction n generalizing s t with
  | zero =>
    obtain rfl := Host.Outcome.next.inj h
    exact ⟨t, rfl, a⟩
  | succ n ih =>
    obtain ⟨u, hu, hr⟩ := run_succ_inv h
    obtain ⟨v, hv, a'⟩ := a.step hu
    rw [run_succ_next n hv]
    exact ih a' hr

/-- `INIT` leaves only `BUF` and `a, b, c, d` as they were, and with `FILL = 0` no byte of `BUF` counts (R106). -/
theorem alike_opened {s t : State} (hs : Memory.wf s.buf = true) (ht : Memory.wf t.buf = true) (hi : s.inputs = t.inputs) :
    Alike (opened s) (opened t) where
  h := rfl
  fill := rfl
  len := rfl
  phase := rfl
  padst := rfl
  rnd := rfl
  ovf := rfl
  perr := rfl
  inputs := hi
  bytes _ hlt := absurd hlt (Nat.not_lt_zero _)
  working h := by simp at h
  buffers := ⟨hs, ht⟩

/-- A state of the invariant takes the step of an accepted `INIT`. -/
theorem Inv.step_init {s : State} (h : Inv s) (ha : acceptedNow s = some .init) : step s = .next (opened s.tick) :=
  step_accepted (fun _ => h.tick.not_stuck) ha

/-- Settles O51: after the `INIT` the two states are alike, and alike states show the same. -/
theorem initForgetsTheHistory : Obligations.InitForgetsTheHistory := by
  intro s t s' n hs ht ds dt hin ha hrun
  have ha' : acceptedNow t = some .init := by
    rw [← ha]
    simp only [acceptedNow, State.pins, hin, ds, dt]
  have a : Alike (opened s.tick) (opened t.tick) := alike_opened hs.buffer ht.buffer (congrArg List.tail hin)
  rw [run_succ_next n (hs.step_init ha)] at hrun
  obtain ⟨t', ht', a'⟩ := a.run hrun
  exact ⟨t', (run_succ_next n (ht.step_init ha')).trans ht', a'.observe_eq⟩

end Sys2Proof.Machine
end

section
/-! SUPPORT. The Compression Core against the reference (43_compression_core.md R141 to R145): a round micro-operation is
`roundStep`, and the word view of a full `BUF` is `decode` of the block it holds. -/

namespace Sys2Proof.Machine

/-- Round `i` by the tables of R137 to R140: the constants bound in R200 to R263 are theirs. -/
theorem exec_roundInstr (i : BitVec 6) (s : State) :
    exec (roundInstr i) s =
      onWholeBlock s
        { s with
          w := roundStep i.toNat s.w (blockWord s.buf)
          rnd := if i.toNat = 63 then 0#6 else i + 1#6
          phase := if i.toNat = 63 then .addbk else s.phase } := by
  obtain ⟨i⟩ := i
  fin_cases i <;> rfl

/-- The registers a round leaves, whatever state it is read off (R141). -/
theorem w_of_exec_roundInstr {i : BitVec 6} {s t : State} (hf : s.fill = 64#7) (h : exec (roundInstr i) s = .next t) :
    t.w = roundStep i.toNat s.w (blockWord s.buf) := by
  rw [exec_roundInstr, onWholeBlock_eq hf] at h
  obtain rfl := Host.Outcome.next.inj h
  rfl

/-- `decode` of a block is the word view of a buffer with the same bytes (R121, R122). -/
theorem decodeBlock_eq_blockWord {q : Block} {b : Memory} (h : ∀ k (hk : k < 64), q[k] = Memory.read b k) :
    decodeBlock q = blockWord b := by
  funext j
  rw [blockWord_eq_wordAt, decodeBlock, Claims.wordAt, h, h, h, h]

end Sys2Proof.Machine
end

section
/-! SUPPORT. The lanes of the two output ports (45_digest_formatter.md R152, R153), and what the host finds when the digest is
ready (R157). -/

namespace Sys2Proof.Machine

theorem packLE_lt (bs : List Byte) : packLE bs < 2 ^ (8 * bs.length) := by
  induction bs with
  | nil => decide
  | cons b bs ih =>
    have hb := b.isLt
    have hs : packLE (b :: bs) = b.toNat + 256 * packLE bs := rfl
    rw [hs, List.length_cons, Nat.mul_succ, Nat.pow_add]
    omega

theorem packLE_div_mod (bs : List Byte) (n : Nat) : packLE bs / 2 ^ (8 * n) % 256 = (bs.getD n 0#8).toNat := by
  induction bs generalizing n with
  | nil => simp [packLE]
  | cons b bs ih =>
    have hb := b.isLt
    have hs : packLE (b :: bs) = b.toNat + 256 * packLE bs := rfl
    cases n with
    | zero =>
      rw [hs, Nat.mul_zero, Nat.pow_zero, Nat.div_one, List.getD_cons_zero]
      omega
    | succ n =>
      have hd : (b.toNat + 256 * packLE bs) / 256 = packLE bs := by omega
      have hp : 2 ^ (8 * (n + 1)) = 256 * 2 ^ (8 * n) := by rw [Nat.mul_succ, Nat.pow_add, Nat.mul_comm]
      rw [hs, hp, ← Nat.div_div_eq_div_mul, hd, ih, List.getD_cons_succ]

/-- Byte lane `n` of a port wide enough for the sequence is its `n`-th byte. -/
theorem extractLsb'_packLE {bs : List Byte} {w : Nat} (h : 8 * bs.length ≤ w) (n : Nat) :
    (BitVec.ofNat w (packLE bs)).extractLsb' (8 * n) 8 = bs.getD n 0#8 := by
  have hlt : packLE bs < 2 ^ w := (packLE_lt bs).trans_le (Nat.pow_le_pow_right (by decide) h)
  apply BitVec.eq_of_toNat_eq
  rw [BitVec.extractLsb'_toNat, BitVec.toNat_ofNat, Nat.mod_eq_of_lt hlt, Nat.shiftRight_eq_div_pow]
  exact packLE_div_mod bs n

/-- In DONE without an error, with the chaining value of `m` in `A, B, C, D`, the host finds the digest of `m`. -/
theorem showsDigestOf {m : List Byte} {t : State} (hp : t.phase = .done) (ho : t.ovf = false) (he : t.perr = false)
    (hc : chain m = some t.h) : Claims.ShowsDigestOf m t where
  valid := (dv_iff t).mpr hp
  status := status_of ho he hp
  flags := ⟨ho, he⟩
  registers := hc
  reference := md5_eq_ok hc
  bytes n _ := by
    rw [digestPort, if_pos ((dv_iff t).mpr hp)]
    exact extractLsb'_packLE (Nat.le_of_eq rfl) n
  characters n _ := by
    rw [hexPort, if_pos ((dv_iff t).mpr hp)]
    exact extractLsb'_packLE (Nat.le_of_eq rfl) n

end Sys2Proof.Machine
end

section
/-! SUPPORT. Runs without `RESET` of a state of the invariant (10_state.md R40): every step is taken, and the commands a run
accepts are those of its steps in order. -/

namespace Sys2Proof.Machine

theorem NoReset.pins {n : Nat} {s : State} (h : NoReset (n + 1) s) : s.pins.rst = false := by
  cases hi : s.inputs with
  | nil => rw [State.pins, hi]; rfl
  | cons p l =>
    rw [State.pins, hi]
    exact h p (by simp [hi])

/-- The pins after `n` steps are those of the steps to come. -/
theorem NoReset.after {n k : Nat} {s t : State} (h : NoReset (n + k) s) (ht : t.inputs = s.inputs.drop n) : NoReset k t := by
  intro p hp
  rw [ht, List.take_drop] at hp
  exact h p (List.mem_of_mem_drop hp)

theorem NoReset.step {n : Nat} {s t : State} (h : NoReset (n + 1) s) (ht : step s = .next t) : NoReset n t :=
  NoReset.after (Nat.add_comm n 1 ▸ h) (by rw [step_inputs ht, List.drop_one])

theorem NoReset.mono {n k : Nat} {s : State} (h : NoReset n s) (hk : k ≤ n) : NoReset k s :=
  fun p hp => h p ((List.take_sublist_take_left hk).subset hp)

theorem run_inputs {n : Nat} {s t : State} (h : run n s = .next t) : t.inputs = s.inputs.drop n := by
  induction n generalizing s with
  | zero => obtain rfl := Host.Outcome.next.inj h; rfl
  | succ n ih =>
    obtain ⟨u, hu, hr⟩ := run_succ_inv h
    rw [ih hr, step_inputs hu, List.drop_tail]

/-- A ready state of the invariant has a step: `DATA` finds room in the block (R40, R104). -/
theorem Inv.exists_ready_effect {s : State} (h : Inv s) (hd : rdy s = true) (hr : s.pins.rst = false) :
    ∃ t, StepEffect s s.tick t := by
  cases hc : s.pins.cv with
  | false => exact ⟨_, .idle hr hd hc⟩
  | true =>
    have ha := acceptedNow_of hr hd hc
    obtain hi | hi | ⟨b, hi⟩ | hi := decodeCmd_cases s.pins.cmd <;> rw [hi] at ha
    · exact ⟨_, .nop ha⟩
    · exact ⟨_, .init ha⟩
    · by_cases hp : s.phase = .absorb
      · by_cases hl : s.len = Config.maxLen
        · exact ⟨_, .dataOverflow b ha hp hl⟩
        · exact ⟨_, .data b ha hp hl (h.fill_le (by rw [hp]; rfl))⟩
      · exact ⟨_, .dataProtocol b ha hp⟩
    · by_cases hp : s.phase = .absorb
      · exact ⟨_, .final ha hp⟩
      · exact ⟨_, .finalProtocol ha hp⟩

/-- A state of the invariant takes a step, by one of the cases of `StepEffect`. -/
theorem Inv.exists_effect {s : State} (h : Inv s) (hr : s.pins.rst = false) :
    ∃ t, step s = .next t ∧ StepEffect s s.tick t := by
  obtain ⟨t, he⟩ : ∃ t, StepEffect s s.tick t := by
    cases hd : rdy s with
    | true => exact h.exists_ready_effect hd hr
    | false => exact h.exists_busy_effect hd hr
  exact ⟨t, he.step_eq fun _ => h.tick.not_stuck, he⟩

/-- With no busy step to go the core is ready (R341). -/
theorem Inv.rdy_of_busySteps {s : State} (h : Inv s) (h0 : busySteps s = 0) : rdy s = true := by
  cases hd : rdy s with
  | true => rfl
  | false =>
    obtain ⟨t, -, -, hb⟩ := (h.with_inputs []).busy_step hd rfl
    have hb' : busySteps s = busySteps t + 1 := hb
    omega

/-- After its busy steps the core is ready, and it has accepted no command meanwhile (R341). -/
theorem Inv.run_busySteps {s : State} (h : Inv s) (hn : NoReset (busySteps s) s) :
    ∃ t, run (busySteps s) s = .next t ∧ rdy t = true ∧ accepted (busySteps s) s = [] := by
  generalize hk : busySteps s = k at hn
  induction k generalizing s with
  | zero => exact ⟨s, rfl, h.rdy_of_busySteps hk, rfl⟩
  | succ k ih =>
    have hd : rdy s = false := Bool.eq_false_iff.mpr fun e => by simp [busySteps_ready e] at hk
    obtain ⟨u, hu, hi, hb⟩ := h.busy_step hd hn.pins
    obtain ⟨t, ht, hrd, ha⟩ := ih hi (by omega) (hn.step hu)
    refine ⟨t, (run_succ_next k hu).trans ht, hrd, ?_⟩
    simp only [accepted, hu, acceptedNow_busy hd, ha, Option.toList_none, List.append_nil]

/-- The commands other than `NOP` among those given. -/
def effective (l : List Instr) : List Instr := l.filter fun i => decide (i ≠ .nop)

theorem effective_append (l l' : List Instr) : effective (l ++ l') = effective l ++ effective l' := List.filter_append l l'

theorem accepted_succ {s t : State} (n : Nat) (h : step s = .next t) :
    accepted (n + 1) s = (acceptedNow s).toList ++ accepted n t := by
  simp only [accepted, h]

end Sys2Proof.Machine
end

section
/-! SUPPORT. A transaction step by step (41_preprocessor.md R114, 43_compression_core.md R143): in every state from `INIT` to
DONE the registers hold the chaining value of the first blocks of the padded message, and `BUF` the bytes after them. -/

namespace Sys2Proof.Machine

/-- How far the padded message has come in each padding state (R30): `l` is `LEN`, and `j` bytes are pushed since `INIT`. -/
def PadSt.Reached (m : List Byte) (l j : Nat) : PadSt → Prop
  | .none => l = j ∧ j ≤ m.length
  | .p80 => l = m.length ∧ j = m.length
  | .pz => l = m.length ∧ m.length < j ∧ j ≤ m.length + 1 + zeroCount m.length
  | .pl => l = m.length ∧ m.length + 1 + zeroCount m.length ≤ j ∧ j ≤ m.length + 1 + zeroCount m.length + 8

section
variable {m : List Byte} {l n f : Nat}

/-! The padding, byte by byte: `f` bytes of the block after the first `n` blocks are pushed. -/

theorem reached_mark (h : PadSt.p80.Reached m l (64 * n + f)) :
    (paddedBytes m)[64 * n + f]? = some 0x80#8 ∧ PadSt.pz.Reached m l (64 * n + f + 1) := by
  obtain ⟨hl, hj⟩ := h
  exact ⟨hj ▸ paddedBytes_getElem?_mark, hl, by omega, by omega⟩

theorem reached_zero (h : PadSt.pz.Reached m l (64 * n + f)) (hf : f ≤ 63) (hz : f ≠ 56) :
    (paddedBytes m)[64 * n + f]? = some 0x00#8 ∧ PadSt.pz.Reached m l (64 * n + f + 1) := by
  obtain ⟨hl, h1, h2⟩ := h
  have hmod := add_zeroCount_mod m.length
  exact ⟨paddedBytes_getElem?_zero h1 (by omega), hl, by omega, by omega⟩

/-- At byte 56 of a block all the zeros are pushed: there are at most 63 (R100). -/
theorem reached_switch (h : PadSt.pz.Reached m l (64 * n + 56)) : PadSt.pl.Reached m l (64 * n + 56) := by
  obtain ⟨hl, h1, h2⟩ := h
  have hmod := add_zeroCount_mod m.length
  have hle := zeroCount_le m.length
  exact ⟨hl, by omega, by omega⟩

theorem reached_length (h : PadSt.pl.Reached m l (64 * n + f)) (h56 : 56 ≤ f) (hf : f ≤ 63) :
    (paddedBytes m)[64 * n + f]? = some (byteOf64 (BitVec.ofNat 64 (8 * l)) (f - 56)) ∧
      PadSt.pl.Reached m l (64 * n + f + 1) := by
  obtain ⟨rfl, h1, h2⟩ := h
  have hmod := add_zeroCount_mod m.length
  have hj : 64 * n + f = m.length + 1 + zeroCount m.length + (f - 56) := by omega
  exact ⟨hj ▸ paddedBytes_getElem?_length (by omega), rfl, by omega, by omega⟩

/-- A whole number of blocks with the length field in them is the whole padded message (R102). -/
theorem reached_end (h : PadSt.pl.Reached m l (64 * n)) : n = blockCount m.length := by
  obtain ⟨-, h1, h2⟩ := h
  have hmod := add_zeroCount_mod m.length
  have hlen := length_paddedBytes_eq_blockCount m
  rw [length_paddedBytes] at hlen
  omega

end

theorem lengthByte_eq (s : State) (k : Nat) : lengthByte s k = byteOf64 (BitVec.ofNat 64 (8 * s.len.toNat)) k := by
  rw [lengthByte, ← toNat_bitLength, BitVec.ofNat_toNat, BitVec.setWidth_eq]

/-- The first `n` blocks of the padded message are compressed into `q`, and the `f` bytes after them stand in `b`. -/
structure HoldsBlocks (m : List Byte) (n : Nat) (q : Quad) (b : Memory) (f : Nat) : Prop where
  chained : chainBlocks (paddedBytes m) n = some q
  bytes : ∀ i, i < f → (paddedBytes m)[64 * n + i]? = some (Memory.read b i)

/-- The rounds the working registers have gone through, in ROUND and in ADDBK (R31). -/
def roundsDone (s : State) : Nat := if s.phase = .addbk then 64 else s.rnd.toNat

/-- The core is inside a transaction of `m`, free of errors, with `n` blocks compressed. -/
structure Hashing (m : List Byte) (n : Nat) (s : State) : Prop where
  inv : Inv s
  /-- Every command was accepted where it is allowed (R302). -/
  perr : s.perr = false
  /-- A message is open or finished, and it has not overflowed (R29). -/
  started : s.phase ≠ .idle ∧ s.phase ≠ .error
  holds : HoldsBlocks m n s.h s.buf s.fill.toNat
  /-- The working registers hold the rounds of the block in `BUF` (R142). -/
  working : s.phase = .round ∨ s.phase = .addbk → s.w = rounds (blockWord s.buf) s.h (roundsDone s)
  reached : s.padst.Reached m s.len.toNat (64 * n + s.fill.toNat)

/-- The commands the host of a transaction of `m` still has to give (R332). -/
def toCome (m : List Byte) (s : State) : List Instr :=
  if s.padst = .none then (m.drop s.len.toNat).map Instr.data ++ [.final] else []

section
variable {m : List Byte} {n : Nat} {q : Quad} {b : Memory} {f : Nat}

/-- The next byte of the padded message, written at its place (R104). -/
theorem HoldsBlocks.write (h : HoldsBlocks m n q b f) {v : Byte} (hb : Memory.wf b = true)
    (hv : (paddedBytes m)[64 * n + f]? = some v) : HoldsBlocks m n q (Memory.write b f v) (f + 1) where
  chained := h.chained
  bytes i hi := by
    rw [Memory.read_write _ _ _ _ hb]
    split
    · next hk => rw [hk, hv]
    · exact h.bytes i (by omega)

/-- The compression of a full block goes on with the chaining value (R142, R143). -/
theorem HoldsBlocks.compress (h : HoldsBlocks m n q b 64) : HoldsBlocks m (n + 1) (compress q (blockWord b)) b 0 where
  chained := by
    obtain ⟨hl, -⟩ := List.getElem?_eq_some_iff.mp (h.bytes 63 (by decide))
    obtain ⟨k, hk⟩ := block_inside (n := n) (length_paddedBytes_mod m) (by omega)
    obtain ⟨-, -, hki⟩ := block_some hk
    have hx : decodeBlock k = blockWord b :=
      decodeBlock_eq_blockWord fun i hi => Option.some.inj ((hki i hi).symm.trans (h.bytes i hi))
    exact chainBlocks_succ.mpr ⟨q, k, h.chained, hk, by rw [hx]⟩
  bytes _ hi := absurd hi (Nat.not_lt_zero _)

end

section
variable {m : List Byte} {n : Nat} {s : State}

/-- A pushed byte inside a transaction. -/
theorem hashing_pushed (h : HoldsBlocks m n s.h s.buf s.fill.toNat) {v : Byte} {p : Phase} (hi : Inv (pushed v p s))
    (he : s.perr = false) (hp : p = .absorb ∨ p = .pad) (hb : Memory.wf s.buf = true) (hf : s.fill.toNat ≤ 63)
    (hv : (paddedBytes m)[64 * n + s.fill.toNat]? = some v)
    (hr : s.padst.Reached m s.len.toNat (64 * n + s.fill.toNat + 1)) : Hashing m n (pushed v p s) := by
  have hph : (pushed v p s).phase = .load ∨ (pushed v p s).phase = .absorb ∨ (pushed v p s).phase = .pad := by
    rw [pushed_phase]
    split
    · exact .inl rfl
    · exact .inr hp
  refine ⟨hi, he, ?_, ?_, fun hc => ?_, ?_⟩
  · obtain hph | hph | hph := hph <;> rw [hph] <;> decide
  · rw [pushed_fill, toNat_succ_fill hf]
    exact h.write hb hv
  · obtain hph | hph | hph := hph <;> rw [hph] at hc <;> exact absurd hc (by decide)
  · rw [pushed_padst, pushed_len, pushed_fill, toNat_succ_fill hf]
    exact hr

/-- `INIT` opens the transaction of every message. -/
theorem hashing_opened (hi : Inv s) (m : List Byte) : Hashing m 0 (opened s) where
  inv := inv_opened hi
  perr := rfl
  started := by simp
  holds := ⟨rfl, fun _ h => absurd h (Nat.not_lt_zero _)⟩
  working h := by simp at h
  reached := ⟨rfl, Nat.zero_le _⟩

/-- The commands to come, by the first of them. -/
theorem toCome_cons {i : Instr} {r : List Instr} (h : i :: r = toCome m s) :
    s.padst = .none ∧
      ((∃ b, i = .data b ∧ m[s.len.toNat]? = some b ∧ r = (m.drop (s.len.toNat + 1)).map Instr.data ++ [.final]) ∨
        i = .final ∧ m.length ≤ s.len.toNat ∧ r = []) := by
  unfold toCome at h
  split at h
  · next hq =>
    refine ⟨hq, ?_⟩
    obtain hlt | hge := Nat.lt_or_ge s.len.toNat m.length
    · rw [List.drop_eq_getElem_cons hlt] at h
      obtain ⟨rfl, rfl⟩ := List.cons.inj h
      exact .inl ⟨_, rfl, List.getElem?_eq_getElem hlt, rfl⟩
    · rw [List.drop_eq_nil_of_le hge] at h
      obtain ⟨rfl, rfl⟩ := List.cons.inj h
      exact .inr ⟨rfl, hge, rfl⟩
  · cases h

theorem init_ne_toCome {r : List Instr} : .init :: r ≠ toCome m s := by
  intro h
  obtain ⟨-, ⟨b, hb, -⟩ | ⟨hf, -⟩⟩ := toCome_cons h
  · cases hb
  · cases hf

theorem data_of_toCome {b : Byte} {r : List Instr} (h : .data b :: r = toCome m s) :
    s.padst = .none ∧ m[s.len.toNat]? = some b ∧ r = (m.drop (s.len.toNat + 1)).map Instr.data ++ [.final] := by
  obtain ⟨hq, ⟨b', hb, hm, hr⟩ | ⟨hf, -⟩⟩ := toCome_cons h
  · cases hb
    exact ⟨hq, hm, hr⟩
  · cases hf

theorem final_of_toCome {r : List Instr} (h : .final :: r = toCome m s) :
    s.padst = .none ∧ m.length ≤ s.len.toNat ∧ r = [] := by
  obtain ⟨hq, ⟨b, hb, -⟩ | ⟨-, hm, hr⟩⟩ := toCome_cons h
  · cases hb
  · exact ⟨hq, hm, hr⟩

section
variable (h : Hashing m n s)
include h

/-- The invariant and the transaction say nothing about the pins. -/
theorem Hashing.tick : Hashing m n s.tick := { h with inv := h.inv.tick }

/-- In a ready phase the transaction takes message bytes or is over (R29). -/
theorem Hashing.ready_cases (hd : rdy s = true) :
    s.phase = .absorb ∧ s.padst = .none ∨ s.phase = .done ∧ s.padst = .pl := by
  obtain hp | hp | hp | hp := (rdy_iff s).mp hd
  · exact absurd hp h.started.1
  · exact .inl ⟨hp, h.inv.noPadding (.inr (.inl hp))⟩
  · exact .inr ⟨hp, (h.inv.finished hp).1⟩
  · exact absurd hp h.started.2

/-- A ready core whose host has commands to give is in ABSORB. -/
theorem Hashing.absorb (hd : rdy s = true) (hq : s.padst = .none) : s.phase = .absorb := by
  obtain ⟨hp, -⟩ | ⟨-, hq'⟩ := h.ready_cases hd
  · exact hp
  · rw [hq] at hq'
    cases hq'

/-- In DONE the whole padded message is compressed (R143). -/
theorem Hashing.chain_eq_of_done (hm : m.length < 2 ^ 61) (hp : s.phase = .done) : chain m = some s.h := by
  obtain ⟨hq, hf⟩ := h.inv.finished hp
  have hr := h.reached
  rw [hq, hf] at hr
  rw [chain_eq hm, ← reached_end hr, h.holds.chained]

/-- A padding step pushes the next byte of the padded message, or finds the length field reached (R109 to R112). -/
theorem Hashing.pad_step {t : State} (he : StepEffect s s.tick t) (hp : s.phase = .pad) (hr : s.pins.rst = false) :
    Hashing m n t ∧ toCome m t = toCome m s := by
  have hi := h.inv.effect he
  have hb := h.inv.buffer
  have hd : rdy s = false := by simp [rdy, hp, Phase.ready]
  have hreach := h.reached
  cases he with
  | reset hr' => simp [hr] at hr'
  | idle _ hd' => simp [hd] at hd'
  | nop ha | init ha | dataProtocol _ ha | dataOverflow _ ha | data _ ha | finalProtocol ha | final ha =>
    simp [acceptedNow_busy hd] at ha
  | load _ hp' | round _ hp' | lastRound _ hp' | addbkAbsorb _ hp' | addbkPad _ hp' | addbkDone _ hp' => simp [hp] at hp'
  | pad80 _ _ hq hf =>
    rw [hq] at hreach
    obtain ⟨hv, hj⟩ := reached_mark hreach
    exact ⟨hashing_pushed (s := { s.tick with padst := .pz }) h.holds hi h.perr (.inr rfl) hb hf hv hj,
      by simp [toCome, hq]⟩
  | padz _ _ hq hne hf =>
    rw [hq] at hreach
    obtain ⟨hv, hj⟩ := reached_zero hreach hf fun e => hne (BitVec.eq_of_toNat_eq e)
    exact ⟨hashing_pushed (s := s.tick) h.holds hi h.perr (.inr rfl) hb hf hv (by rwa [tick_padst, hq]), rfl⟩
  | padsw _ _ hq h56 =>
    rw [hq, h56] at hreach
    exact ⟨{ h.tick with inv := hi, reached := h56 ▸ reached_switch hreach }, by simp [toCome, hq]⟩
  | padlen _ _ hq h56 hf =>
    rw [hq] at hreach
    obtain ⟨hv, hj⟩ := reached_length hreach h56 hf
    rw [← lengthByte_eq] at hv
    exact ⟨hashing_pushed (s := s.tick) h.holds hi h.perr (.inr rfl) hb hf hv (by rwa [tick_padst, hq]), rfl⟩

/-- A round goes on with the rounds of the reference (R142, R144). -/
theorem Hashing.round_w {t : State} (hp : s.phase = .round) (hf : s.fill = 64#7) (ht : exec (roundInstr s.rnd) s = .next t) :
    t.w = rounds (blockWord s.buf) s.h (s.rnd.toNat + 1) := by
  have hw := h.working (.inl hp)
  rw [roundsDone, if_neg (by simp [hp])] at hw
  rw [w_of_exec_roundInstr hf ht, hw]
  rfl

/-- The feed-forward completes the compression of the block (R142, R145). -/
theorem Hashing.addedBack (hp : s.phase = .addbk) (hf : s.fill = 64#7) {p : Phase} (hi : Inv (addedBack p s.tick))
    (hq : p = .absorb ∨ p = .pad ∨ p = .done) : Hashing m (n + 1) (addedBack p s.tick) where
  inv := hi
  perr := h.perr
  started := by obtain rfl | rfl | rfl := hq <;> simp
  holds := by
    have hw := h.working (.inr hp)
    rw [roundsDone, if_pos hp] at hw
    have hh := h.holds
    rw [hf] at hh
    rw [addedBack_h, tick_h, tick_w, hw]
    exact hh.compress
  working hp' := by obtain rfl | rfl | rfl := hq <;> simp at hp'
  reached := by
    have hr := h.reached
    rw [hf] at hr
    exact hr

/-- A step of the compression core: seed, round, or feed-forward (R124, R144, R145). -/
theorem Hashing.compress_step {t : State} (he : StepEffect s s.tick t) (hc : s.phase.compressing = true)
    (hr : s.pins.rst = false) : ∃ n', Hashing m n' t ∧ toCome m t = toCome m s := by
  have hi := h.inv.effect he
  have hd : rdy s = false := by
    obtain hp | hp | hp := Phase.compressing_iff.mp hc <;> simp [rdy, hp, Phase.ready]
  cases he with
  | reset hr' => simp [hr] at hr'
  | idle _ hd' => simp [hd] at hd'
  | nop ha | init ha | dataProtocol _ ha | dataOverflow _ ha | data _ ha | finalProtocol ha | final ha =>
    simp [acceptedNow_busy hd] at ha
  | pad80 _ hp | padz _ hp | padsw _ hp | padlen _ hp => simp [hp, Phase.compressing] at hc
  | load _ hp hf => exact ⟨n, { h.tick with inv := hi, started := by simp, working := fun _ => rfl }, rfl⟩
  | round _ hp hf h63 f g k r hx =>
    have hw := h.round_w hp hf ((hx s).trans (onWholeBlock_eq hf))
    have hs : (s.rnd + 1#6).toNat = s.rnd.toNat + 1 := by bv_omega
    refine ⟨n, { h.tick with inv := hi, working := fun _ => ?_ }, rfl⟩
    rw [roundsDone, if_neg (by simp [hp]), hs]
    exact hw
  | lastRound _ hp hf h63 f g k r hx =>
    have hw := h.round_w hp hf ((hx s).trans (onWholeBlock_eq hf))
    rw [h63] at hw
    exact ⟨n, { h.tick with inv := hi, started := by simp, working := fun _ => hw }, rfl⟩
  | addbkAbsorb _ hp hq hf => exact ⟨n + 1, h.addedBack hp hf hi (.inl rfl), rfl⟩
  | addbkPad _ hp hq hf => exact ⟨n + 1, h.addedBack hp hf hi (.inr (.inl rfl)), rfl⟩
  | addbkDone _ hp hq hf => exact ⟨n + 1, h.addedBack hp hf hi (.inr (.inr rfl)), rfl⟩

/-- A ready step accepts the next command of the transaction, a `NOP`, or none (R105, R107, R108). -/
theorem Hashing.command_step {t : State} (hm : m.length < 2 ^ 61) (he : StepEffect s s.tick t) (hd : rdy s = true)
    (hr : s.pins.rst = false) {r : List Instr} (hc : effective (acceptedNow s).toList ++ r = toCome m s) :
    Hashing m n t ∧ toCome m t = r := by
  have hi := h.inv.effect he
  cases he with
  | reset hr' => simp [hr] at hr'
  | pad80 _ hp | padz _ hp | padsw _ hp | padlen _ hp | load _ hp | round _ hp | lastRound _ hp | addbkAbsorb _ hp
  | addbkPad _ hp | addbkDone _ hp => simp [rdy, hp, Phase.ready] at hd
  | idle _ _ hcv =>
    rw [acceptedNow_quiet hcv] at hc
    exact ⟨h.tick, hc.symm⟩
  | nop ha =>
    rw [ha] at hc
    exact ⟨h.tick, hc.symm⟩
  | init ha =>
    rw [ha] at hc
    exact absurd hc init_ne_toCome
  | dataProtocol b ha hp =>
    rw [ha] at hc
    obtain ⟨hq, -⟩ := data_of_toCome hc
    exact absurd (h.absorb hd hq) hp
  | dataOverflow b ha hp hl =>
    rw [ha] at hc
    obtain ⟨hq, hlt, -⟩ := data_of_toCome hc
    obtain ⟨hlt, -⟩ := List.getElem?_eq_some_iff.mp hlt
    rw [eq_maxLen_iff] at hl
    omega
  | data b ha hp hl hf =>
    rw [ha] at hc
    obtain ⟨hq, hb, hr⟩ := data_of_toCome hc
    obtain ⟨hlt, -⟩ := List.getElem?_eq_some_iff.mp hb
    have hs := toNat_succ_of_ne_maxLen hl
    have hreach := h.reached
    rw [hq] at hreach
    obtain ⟨hlj, -⟩ := hreach
    refine ⟨hashing_pushed (s := { s.tick with len := s.len + 1#61 }) h.holds hi h.perr (.inl rfl) h.inv.buffer hf ?_ ?_,
      ?_⟩
    · rw [tick_fill, ← hlj, paddedBytes_getElem?_message hlt, hb]
    · rw [tick_padst, hq, hs, tick_fill, ← hlj]
      exact ⟨rfl, hlt⟩
    · rw [toCome, pushed_padst, tick_padst, if_pos hq, pushed_len, hs]
      exact hr.symm
  | finalProtocol ha hp =>
    rw [ha] at hc
    obtain ⟨hq, -⟩ := final_of_toCome hc
    exact absurd (h.absorb hd hq) hp
  | final ha hp =>
    rw [ha] at hc
    obtain ⟨hq, hle, hr⟩ := final_of_toCome hc
    have hreach := h.reached
    rw [hq] at hreach
    obtain ⟨hlj, hj⟩ := hreach
    exact ⟨{ h.tick with
      inv := hi
      started := by simp
      working := fun hp => by simp at hp
      reached := ⟨by rw [tick_len]; omega, by rw [tick_fill]; omega⟩ }, hr.symm⟩

/-- A step inside a transaction takes the host's commands in order. -/
theorem Hashing.step (hm : m.length < 2 ^ 61) (hr : s.pins.rst = false) {r : List Instr}
    (hc : effective (acceptedNow s).toList ++ r = toCome m s) :
    ∃ t n', step s = .next t ∧ Hashing m n' t ∧ toCome m t = r := by
  obtain ⟨t, ht, he⟩ := h.inv.exists_effect hr
  cases hd : rdy s with
  | true =>
    obtain ⟨h', hc'⟩ := h.command_step hm he hd hr hc
    exact ⟨t, n, ht, h', hc'⟩
  | false =>
    rw [acceptedNow_busy hd] at hc
    obtain ⟨n', h', hc'⟩ : ∃ n', Hashing m n' t ∧ toCome m t = toCome m s := by
      cases hp : s.phase with
      | pad => exact ⟨n, h.pad_step he hp hr⟩
      | load | round | addbk => exact h.compress_step he (by rw [hp]; rfl) hr
      | idle | absorb | done | error => simp [rdy, hp, Phase.ready] at hd
    exact ⟨t, n', ht, h', hc'.trans hc.symm⟩

/-- A run inside a transaction in which the host gives all the commands still to come. -/
theorem Hashing.run (hm : m.length < 2 ^ 61) {k : Nat} (hn : NoReset k s) (hc : effective (accepted k s) = toCome m s) :
    ∃ t n', Machine.run k s = .next t ∧ Hashing m n' t ∧ toCome m t = [] := by
  induction k generalizing s n with
  | zero => exact ⟨s, n, rfl, h, hc.symm⟩
  | succ k ih =>
    obtain ⟨u, hu, -⟩ := h.inv.exists_effect hn.pins
    rw [accepted_succ k hu, effective_append] at hc
    obtain ⟨u', n', hu', h', hc'⟩ := h.step hm hn.pins hc
    obtain rfl := Host.Outcome.next.inj (hu.symm.trans hu')
    rw [run_succ_next k hu]
    exact ih h' (hn.step hu) hc'.symm

/-- With no command to come, the wait ends in DONE (R341). -/
theorem Hashing.run_done (hm : m.length < 2 ^ 61) (hc : toCome m s = []) (hn : NoReset 205 s) :
    ∃ k t, k ≤ 205 ∧ Machine.run k s = .next t ∧ t.phase = .done ∧ Claims.ShowsDigestOf m t := by
  have hle := h.inv.busySteps_le
  have hn' := hn.mono hle
  obtain ⟨t, ht, hd, ha⟩ := h.inv.run_busySteps hn'
  obtain ⟨t', n', ht', h', hc'⟩ := h.run hm hn' (by rw [ha, hc]; rfl)
  obtain rfl := Host.Outcome.next.inj (ht.symm.trans ht')
  obtain ⟨-, hq⟩ | ⟨hp, -⟩ := h'.ready_cases hd
  · simp [toCome, hq] at hc'
  · exact ⟨_, t, hle, ht, hp,
      showsDigestOf hp (h'.inv.ovf_false (by simp [hp])) h'.perr (h'.chain_eq_of_done hm hp)⟩

end

/-- Up to the `INIT` of a transaction only `NOP`s are accepted; from it on the run is inside the transaction. -/
theorem Inv.run_transaction (h : Inv s) (hm : m.length < 2 ^ 61) {k : Nat} (hn : NoReset k s)
    (hc : effective (accepted k s) = .init :: (m.map Instr.data ++ [.final])) :
    ∃ t n', run k s = .next t ∧ Hashing m n' t ∧ toCome m t = [] := by
  induction k generalizing s with
  | zero => cases hc
  | succ k ih =>
    obtain ⟨u, hu, he⟩ := h.exists_effect hn.pins
    rw [accepted_succ k hu, effective_append] at hc
    rw [run_succ_next k hu]
    cases ha : acceptedNow s with
    | none =>
      rw [ha] at hc
      exact ih (h.effect he) (hn.step hu) hc
    | some i =>
      rw [ha] at hc
      by_cases hi : i = .nop
      · subst hi
        exact ih (h.effect he) (hn.step hu) hc
      · have hcons : effective [i] = [i] := by simp [effective, hi]
        rw [Option.toList_some, hcons] at hc
        obtain ⟨rfl, hrest⟩ := List.cons.inj hc
        obtain rfl := Host.Outcome.next.inj (hu.symm.trans (h.step_init ha))
        exact (hashing_opened h.tick m).run hm (hn.step hu) hrest

end

/-- Settles O58: the run is inside the transaction from its `INIT` on, and after its `FINAL` the wait ends in DONE. -/
theorem everyInterleavingComputesMd5 : Obligations.EveryInterleavingComputesMd5 := by
  intro s n m h hm hn hc
  obtain ⟨u, n', hu, hh, hc'⟩ := h.run_transaction hm (hn.mono (Nat.le_add_right n 205)) hc
  obtain ⟨k, t, hk, ht, hp, hs⟩ := hh.run_done hm hc' (hn.after (run_inputs hu))
  exact ⟨k, t, hk, (run_add k hu).trans ht, hp, hs⟩

end Sys2Proof.Machine
end

section
/-! SUPPORT. The Block Scheduler (42_block_scheduler.md R120, R121, R124): the bytes of a block, the inverse of `decode`, and the
seeding of the working registers. -/

namespace Sys2Proof.Machine

/-- Settles O25: `LOAD` of a whole block has a step, and its row of R75 selects it. -/
theorem loadSeedsTheWorkingRegisters : Obligations.LoadSeedsTheWorkingRegisters :=
  ⟨fun _ hf => onWholeBlock_eq hf, selects_row .load rfl⟩

/-- `block(p, n)` is the window `p[64n .. 64n + 64)` (R120). -/
theorem toList_of_block {p : List Byte} {n : Nat} {q : Block} (h : block p n = some q) :
    q.toList = (p.drop (64 * n)).take 64 := by
  obtain ⟨-, -, hb⟩ := block_some h
  refine List.ext_getElem? fun k => ?_
  by_cases hk : k < 64
  · rw [List.getElem?_take_of_lt hk, List.getElem?_drop, hb k hk, Vector.getElem?_toList, Vector.getElem?_eq_getElem hk]
  · have hle := Nat.not_lt.mp hk
    rw [List.getElem?_eq_none (q.length_toList.trans_le hle), List.getElem?_eq_none ((List.length_take_le _ _).trans hle)]

/-- R121: the word is the little-endian number of its four bytes, which fits in 32 bits. -/
theorem toNat_decodeBlock (q : Block) (j : Fin 16) :
    (decodeBlock q j).toNat = q[4 * j.val].toNat + 2 ^ 8 * q[4 * j.val + 1].toNat + 2 ^ 16 * q[4 * j.val + 2].toNat
      + 2 ^ 24 * q[4 * j.val + 3].toNat := by
  rw [decodeBlock, BitVec.toNat_ofNat]
  omega

/-- Byte `r` of `X[j]` is `q[4j + r]`. -/
theorem extractLsb'_decodeBlock (q : Block) (j : Fin 16) {r : Nat} (hr : r < 4) :
    (decodeBlock q j).extractLsb' (8 * r) 8 = q[4 * j.val + r] := by
  apply BitVec.eq_of_toNat_eq
  rw [BitVec.extractLsb'_toNat, Nat.shiftRight_eq_div_pow, toNat_decodeBlock]
  interval_cases r <;> simp only [Nat.reduceMul, Nat.add_zero] <;> omega

/-- The block of sixteen words, the inverse of `decode` (R121): byte `k` is byte `k mod 4` of word `k div 4`. -/
def blockOfWords (x : Fin 16 → Word) : Block :=
  Vector.ofFn fun k : Fin 64 => (x ⟨k.val / 4, by omega⟩).extractLsb' (8 * (k.val % 4)) 8

theorem blockOfWords_decodeBlock (q : Block) : blockOfWords (decodeBlock q) = q := by
  refine Vector.ext fun k hk => ?_
  rw [blockOfWords, Vector.getElem_ofFn, extractLsb'_decodeBlock _ _ (Nat.mod_lt k (by decide))]
  simp only [Nat.div_add_mod]

/-- Byte `r` of word `j` is where `decode` reads it. -/
theorem getElem_blockOfWords (x : Fin 16 → Word) (j : Fin 16) {r : Nat} (hr : r < 4) :
    (blockOfWords x)[4 * j.val + r] = (x j).extractLsb' (8 * r) 8 := by
  have hq : (4 * j.val + r) / 4 = j.val := by omega
  have hm : (4 * j.val + r) % 4 = r := by omega
  simp only [blockOfWords, Vector.getElem_ofFn, hq, hm]

theorem decodeBlock_blockOfWords (x : Fin 16 → Word) : decodeBlock (blockOfWords x) = x := by
  funext j
  have hx := (x j).isLt
  have h0 : (blockOfWords x)[4 * j.val] = (x j).extractLsb' 0 8 := getElem_blockOfWords x j (r := 0) (by decide)
  have hb (r : Nat) (hr : r < 4) := getElem_blockOfWords x j hr
  apply BitVec.eq_of_toNat_eq
  rw [toNat_decodeBlock, h0, hb 1 (by decide), hb 2 (by decide), hb 3 (by decide)]
  simp only [BitVec.extractLsb'_toNat, Nat.shiftRight_eq_div_pow]
  omega

/-- Settles O60: `blockOfWords` is the two-sided inverse of `decode`, and the padded message is a whole number of blocks. -/
theorem compressionIsOfWholeBlocksOnly : Obligations.CompressionIsOfWholeBlocksOnly := by
  refine ⟨fun p n => ⟨fun hp hn => ?_, fun h => block_outside (by omega)⟩, toNat_decodeBlock,
    fun q q' h => ?_, fun x => ⟨_, decodeBlock_blockOfWords x⟩, fun p => ⟨rfl, fun n t => chainBlocks_succ⟩,
    fun m => ⟨fun hm => ?_, fun hm => ?_⟩⟩
  · obtain ⟨q, hq⟩ := block_inside hp hn
    exact ⟨q, hq, toList_of_block hq⟩
  · exact Function.LeftInverse.injective blockOfWords_decodeBlock h
  · obtain ⟨t, ht⟩ := exists_chainBlocks (length_paddedBytes_mod m) (length_paddedBytes_div m).ge
    exact ⟨_, t, pad_eq_ok hm, (chain_eq hm).trans ht, (length_paddedBytes_div m).symm ▸ ht⟩
  · rw [chain, pad_eq_error hm]

end Sys2Proof.Machine
end

section
/-! SUPPORT. The arithmetic of the data path (43_compression_core.md R130 to R137): sums of words, rotation as a motion of bits, and
the nonlinear functions bit by bit. -/

namespace Sys2Proof.Machine

/-- Words under `add32` are added in the ring of the integers modulo 2^32 (R130). -/
theorem foldl_add32_eq_sum (xs : List Word) : xs.foldl add32 0#32 = xs.sum := List.sum_eq_foldl.symm

theorem toNat_sum (xs : List Word) : xs.sum.toNat = (xs.map BitVec.toNat).sum % 2 ^ 32 := by
  induction xs with
  | nil => rfl
  | cons x xs ih => rw [List.sum_cons, BitVec.toNat_add, ih, Nat.add_mod_mod, List.map_cons, List.sum_cons]

/-- Within its domain `rotl32` is the rotation of the word (R131). -/
theorem rotl32_eq_rotateLeft (x : Word) {n : Nat} (hn : n < 32) : rotl32 x n = x.rotateLeft n := by
  rw [BitVec.rotateLeft_def, Nat.mod_eq_of_lt hn]
  rfl

/-- The two shifted parts of a rotation have no bit in common, so their `or` is their sum (R131). -/
theorem toNat_rotl32 (x : Word) {n : Nat} (hn : n ≤ 32) :
    (rotl32 x n).toNat = x.toNat * 2 ^ n % 2 ^ 32 + x.toNat / 2 ^ (32 - n) := by
  have hpow : 2 ^ 32 = 2 ^ n * 2 ^ (32 - n) := by rw [← Nat.pow_add, Nat.add_sub_cancel' hn]
  have hlow : x.toNat / 2 ^ (32 - n) < 2 ^ n := Nat.div_lt_of_lt_mul (by rw [Nat.mul_comm, ← hpow]; exact x.isLt)
  have hhigh : x.toNat * 2 ^ n % 2 ^ 32 = 2 ^ n * (x.toNat % 2 ^ (32 - n)) := by
    rw [hpow, Nat.mul_comm, Nat.mul_mod_mul_left]
  rw [rotl32, BitVec.toNat_or, BitVec.toNat_shiftLeft, BitVec.toNat_ushiftRight, Nat.shiftLeft_eq, Nat.shiftRight_eq_div_pow,
    hhigh, Nat.two_pow_add_eq_or_of_lt hlow]

theorem getLsbD_rotl32 (x : Word) {n j : Nat} (hn : n < 32) (hj : j < 32) :
    (rotl32 x n).getLsbD ((j + n) % 32) = x.getLsbD j := by
  rw [rotl32_eq_rotateLeft x hn, BitVec.getLsbD_rotateLeft, Nat.mod_eq_of_lt hn, Bool.cond_decide]
  split
  · next h =>
    have hk : 32 - n + (j + n) % 32 = j := by omega
    rw [hk]
  · next h =>
    have hk : (j + n) % 32 - n = j := by omega
    rw [hk, decide_eq_true (Nat.mod_lt _ (by decide)), Bool.true_and]

/-- Settles O37: sums by the ring of words, rotation by its formula and its bits. -/
theorem additionAndRotationLaws : Obligations.AdditionAndRotationLaws := by
  refine ⟨fun xs ys => ?_, fun x y z => ⟨BitVec.add_assoc x y z, BitVec.add_comm x y⟩, fun x n h1 h31 =>
    ⟨toNat_rotl32 x (by omega), fun j hj => getLsbD_rotl32 x (by omega) hj⟩⟩
  simp only [foldl_add32_eq_sum]
  exact ⟨toNat_sum xs, List.Perm.sum_eq, List.sum_append⟩

section
variable (b c d : Word) {j : Nat}

theorem getLsbD_f0 (hj : j < 32) : (f0 b c d).getLsbD j = if b.getLsbD j = true then c.getLsbD j else d.getLsbD j := by
  rw [f0, BitVec.getLsbD_or, BitVec.getLsbD_and, BitVec.getLsbD_and, BitVec.getLsbD_not]
  cases b.getLsbD j <;> simp [hj]

theorem getLsbD_f1 (hj : j < 32) : (f1 b c d).getLsbD j = if d.getLsbD j = true then b.getLsbD j else c.getLsbD j := by
  rw [f1, BitVec.getLsbD_or, BitVec.getLsbD_and, BitVec.getLsbD_and, BitVec.getLsbD_not]
  cases d.getLsbD j <;> simp [hj]

theorem getLsbD_f2 : (f2 b c d).getLsbD j = (b.getLsbD j).xor ((c.getLsbD j).xor (d.getLsbD j)) := by
  rw [f2, BitVec.getLsbD_xor, BitVec.getLsbD_xor, Bool.xor_assoc]

theorem getLsbD_f3 (hj : j < 32) : (f3 b c d).getLsbD j = (c.getLsbD j).xor (b.getLsbD j || !d.getLsbD j) := by
  simp [f3, hj]

end

/-- The family of a round by the quarter its index lies in (R137). -/
theorem nonlinear_eq_quarter (i : Nat) :
    nonlinear i = if i / 16 = 0 then f0 else if i / 16 = 1 then f1 else if i / 16 = 2 then f2 else f3 :=
  if_ctx_congr (by omega) (fun _ => rfl) fun h0 => if_ctx_congr (by omega) (fun _ => rfl) fun h1 =>
    if_congr (by omega) rfl rfl

/-- Settles O38: each function by its selecting bit, and the families of R137 by quarters of the round index. -/
theorem nonlinearFunctionsBitByBit : Obligations.NonlinearFunctionsBitByBit :=
  ⟨fun b c d _ hj => ⟨getLsbD_f0 b c d hj, getLsbD_f1 b c d hj, getLsbD_f2 b c d, getLsbD_f3 b c d hj⟩,
    fun i _ => nonlinear_eq_quarter i⟩

end Sys2Proof.Machine
end

section
/-! SUPPORT. The Compression Core step by step (43_compression_core.md R144 to R147): the rounds by the template, the feed-forward by
its return link, and the 66 steps of one block. -/

namespace Sys2Proof.Machine

/-- Settles O36: with a whole block a round has the step of its template. -/
theorem roundsFollowTheTemplate : Obligations.RoundsFollowTheTemplate :=
  fun i s hf => (exec_roundInstr i s).trans (onWholeBlock_eq hf)

/-- `ADDBK` of a whole block goes where `PADST` points (R145). -/
theorem execAddbk_eq {s : State} {q : PadSt} (hf : s.fill = 64#7) (hq : s.padst = q) (hne : q ≠ .p80) :
    execAddbk s = .next (addedBack (Claims.returnPhase q) s) := by
  rw [execAddbk, hq]
  cases q with
  | none | pz | pl => exact onWholeBlock_eq hf
  | p80 => exact absurd rfl hne

/-- Settles O34: the three return links, and the row of `ADDBK` in R75. -/
theorem addbkFeedsForward : Obligations.AddbkFeedsForward :=
  ⟨fun _ hf => ⟨fun hq => ⟨execAddbk_eq hf hq (by decide), rfl⟩, fun hq => execAddbk_eq hf hq (by decide),
    fun hq => ⟨execAddbk_eq hf hq (by decide), rfl, rfl⟩⟩, selects_row .addbk rfl⟩

/-- A run whose steps are all busy ones accepts no command (R341). -/
theorem Inv.accepted_busy {s : State} (h : Inv s) {n : Nat} (hb : n ≤ busySteps s) (hn : NoReset n s) : accepted n s = [] := by
  induction n generalizing s with
  | zero => rfl
  | succ n ih =>
    have hd : rdy s = false := Bool.eq_false_iff.mpr fun e => by simp [busySteps_ready e] at hb
    obtain ⟨t, ht, hi, hs⟩ := h.busy_step hd hn.pins
    rw [accepted_succ n ht, acceptedNow_busy hd, ih hi (by omega) (hn.step ht)]
    rfl

section
variable {s : State} (h : Inv s)
include h

/-- Every run keeps the invariant (R40). -/
theorem Inv.after_run {n : Nat} {t : State} (ht : run n s = .next t) : Inv t := by
  induction n generalizing s with
  | zero => obtain rfl := Host.Outcome.next.inj ht; exact h
  | succ n ih =>
    obtain ⟨u, hu, hr⟩ := run_succ_inv ht
    exact ih (h.effect (step_effect hu)) hr

/-- The compression works on a full block (R40 item 1). -/
theorem Inv.full (hc : s.phase.compressing = true) : s.fill = 64#7 := h.fullBlock.mpr hc

/-- A busy state of the invariant executes the micro-operation its registers select (R74). -/
theorem Inv.step_micro (hr : s.pins.rst = false) {i : Instr} (hi : Selected s i) : step s = exec i s.tick :=
  step_selected (fun _ => h.tick.not_stuck) hr (decodeUsel_eq_ok_iff.mpr hi)

end

/-- The state `n` rounds after the `LOAD` of `s` (R142, R144): after the 64th, `RND` has wrapped to 0 and `ADDBK` is next. -/
def afterRounds (n : Nat) (s : State) : State :=
  { s with
    w := rounds (blockWord s.buf) s.h n
    rnd := BitVec.ofNat 6 n
    phase := if n = 64 then .addbk else .round
    inputs := s.inputs.drop (n + 1) }

section
variable {s : State}

/-- `LOAD` seeds the rounds (R124). -/
theorem step_load (h : Inv s) (hp : s.phase = .load) (hr : s.pins.rst = false) : step s = .next (afterRounds 0 s) := by
  have hf : s.fill = 64#7 := h.full (by rw [hp]; rfl)
  rw [h.step_micro hr (.load hp)]
  refine (onWholeBlock_eq hf).trans ?_
  rw [afterRounds, List.drop_one]
  rfl

/-- Round `n` leads to round `n + 1`, and the 64th to `ADDBK` (R144). -/
theorem step_round {n : Nat} (h : Inv (afterRounds n s)) (hn : n < 64) (hr : (afterRounds n s).pins.rst = false) :
    step (afterRounds n s) = .next (afterRounds (n + 1) s) := by
  have hp : (afterRounds n s).phase = .round := if_neg (by omega)
  have hf : (afterRounds n s).fill = 64#7 := h.full (by rw [hp]; rfl)
  have hi : (afterRounds n s).rnd.toNat = n := by
    rw [afterRounds, BitVec.toNat_ofNat]
    omega
  have hrnd : (if n = 63 then 0#6 else BitVec.ofNat 6 n + 1#6) = BitVec.ofNat 6 (n + 1) := by
    split
    · next h63 => subst h63; rfl
    · exact BitVec.ofNat_add_ofNat n 1
  have hphase : (if n = 63 then Phase.addbk else (afterRounds n s).phase) = (afterRounds (n + 1) s).phase := by
    rw [hp]
    exact if_congr (by omega) rfl rfl
  rw [h.step_micro hr (.round hp), exec_roundInstr]
  refine (onWholeBlock_eq hf).trans ?_
  rw [hi, tick_phase, hphase]
  simp only [afterRounds, State.tick, List.tail_drop, hrnd]
  rfl

/-- `LOAD` and the first `n` rounds (R142, R147). -/
theorem run_rounds (h : Inv s) (hp : s.phase = .load) {n : Nat} (hn : n ≤ 64) (hr : NoReset (n + 1) s) :
    run (n + 1) s = .next (afterRounds n s) := by
  induction n with
  | zero => exact run_succ_next 0 (step_load h hp hr.pins)
  | succ n ih =>
    have hrun := ih (by omega) (hr.mono (by omega))
    have hpins : NoReset 1 (afterRounds n s) := hr.after rfl
    rw [run_add 1 hrun, run_succ_next 0 (step_round (h.after_run hrun) hn hpins.pins), run_zero]

/-- The feed-forward ends the compression of the block (R145). -/
theorem step_addbk (h : Inv s) (hp : s.phase = .addbk) (hr : s.pins.rst = false) :
    step s = .next (addedBack (Claims.returnPhase s.padst) s.tick) := by
  have hc : s.phase.compressing = true := by rw [hp]; rfl
  rw [h.step_micro hr (.addbk hp)]
  exact execAddbk_eq (h.full hc) rfl (h.markFirst hc)

end

/-- Settles O56: `LOAD`, the rounds of `afterRounds`, and the feed-forward, none of them a ready step. -/
theorem compressionOfOneBlock : Obligations.CompressionOfOneBlock := by
  intro s h hp hn x
  have hx : x = blockWord s.buf := decodeBlock_eq_blockWord fun k hk => Vector.getElem_ofFn hk
  have hrun := run_rounds h hp (n := 64) (Nat.le_refl 64) (hn.mono (by decide))
  have hpins : NoReset 1 (afterRounds 64 s) := hn.after rfl
  refine ⟨?_, h.accepted_busy ?_ hn⟩
  · have hrnd : s.rnd = 0#6 := h.roundIndex (by simp [hp])
    rw [hx, run_add 1 hrun, run_succ_next 0 (step_addbk (h.after_run hrun) rfl hpins.pins), run_zero, hrnd]
    simp only [afterRounds, addedBack, State.tick, List.tail_drop]
    rfl
  · rw [busySteps_load hp]
    exact Nat.le_add_right _ _

end Sys2Proof.Machine
end

section
/-! SUPPORT. The 64 rounds with their constants bound (44_round_ops.md R200 to R263): the template of a round in the words of the
statements, `temp` rotated by `S[i]` and the message word by its four bytes. -/

namespace Sys2Proof.Machine

section
variable {s : State} {f : Word → Word → Word → Word} {g : Fin 16} {k : Word} {n : Nat}

/-- The registers of R141: `X[g]` is a sum of bytes (R25), and `rotl32` is a rotation, for `n` is in its domain (R131). -/
theorem mix_eq_afterRound_w (hn : n < 32) (r : BitVec 6) :
    mix f k n s.w (blockWord s.buf g) = (Claims.afterRound s (f s.w.b s.w.c s.w.d) k g.val n r).w := by
  rw [mix, rotl32_eq_rotateLeft _ hn, blockWord_eq_wordAt]
  rfl

/-- A round before the last, on a whole block (R141, R144). -/
theorem roundOp_eq_afterRound {r : BitVec 6} (hf : s.fill = 64#7) (hn : n < 32) :
    roundOp f g k n r s = .next (Claims.afterRound s (f s.w.b s.w.c s.w.d) k g.val n r) := by
  rw [roundOp, onWholeBlock_eq hf, mix_eq_afterRound_w hn r]
  rfl

/-- The last round, on a whole block, goes on to `ADDBK` (R144, R263). -/
theorem lastRoundOp_eq_afterRound (hf : s.fill = 64#7) (hn : n < 32) :
    lastRoundOp f g k n s = .next { Claims.afterRound s (f s.w.b s.w.c s.w.d) k g.val n 0#6 with phase := .addbk } := by
  rw [lastRoundOp, onWholeBlock_eq hf, mix_eq_afterRound_w hn 0#6]
  rfl

end

/-- The selectors of round `i` are `0x800 + i` under `0xE3F`, whatever `PADST` and `Z` (R75). -/
theorem selects_round (i : BitVec 6) : Claims.Selects 0xE3F#12 (0x800#12 + i.setWidth 12) (roundInstr i) := by
  have hp : (roundInstr i).pattern = 0x800#12 + i.setWidth 12 := by
    rw [roundInstr_pattern]
    revert i
    decide
  rw [← hp, ← roundInstr_mask i]
  exact selects_row _ (roundInstr_not_command i)

/-- Settles O26: each round is the template with the constants of R200 to R207. -/
theorem rounds00To07 : Obligations.Rounds00To07 := by
  refine ⟨fun s hf => ?_, selects_round 0, selects_round 1, selects_round 2, selects_round 3, selects_round 4,
      selects_round 5, selects_round 6, selects_round 7⟩
  and_intros <;> exact roundOp_eq_afterRound hf (by decide)

/-- Settles O27: each round is the template with the constants of R208 to R215. -/
theorem rounds08To15 : Obligations.Rounds08To15 := by
  refine ⟨fun s hf => ?_, selects_round 8, selects_round 9, selects_round 10, selects_round 11, selects_round 12,
      selects_round 13, selects_round 14, selects_round 15⟩
  and_intros <;> exact roundOp_eq_afterRound hf (by decide)

/-- Settles O28: each round is the template with the constants of R216 to R223. -/
theorem rounds16To23 : Obligations.Rounds16To23 := by
  refine ⟨fun s hf => ?_, selects_round 16, selects_round 17, selects_round 18, selects_round 19, selects_round 20,
      selects_round 21, selects_round 22, selects_round 23⟩
  and_intros <;> exact roundOp_eq_afterRound hf (by decide)

/-- Settles O29: each round is the template with the constants of R224 to R231. -/
theorem rounds24To31 : Obligations.Rounds24To31 := by
  refine ⟨fun s hf => ?_, selects_round 24, selects_round 25, selects_round 26, selects_round 27, selects_round 28,
      selects_round 29, selects_round 30, selects_round 31⟩
  and_intros <;> exact roundOp_eq_afterRound hf (by decide)

/-- Settles O30: each round is the template with the constants of R232 to R239. -/
theorem rounds32To39 : Obligations.Rounds32To39 := by
  refine ⟨fun s hf => ?_, selects_round 32, selects_round 33, selects_round 34, selects_round 35, selects_round 36,
      selects_round 37, selects_round 38, selects_round 39⟩
  and_intros <;> exact roundOp_eq_afterRound hf (by decide)

/-- Settles O31: each round is the template with the constants of R240 to R247. -/
theorem rounds40To47 : Obligations.Rounds40To47 := by
  refine ⟨fun s hf => ?_, selects_round 40, selects_round 41, selects_round 42, selects_round 43, selects_round 44,
      selects_round 45, selects_round 46, selects_round 47⟩
  and_intros <;> exact roundOp_eq_afterRound hf (by decide)

/-- Settles O32: each round is the template with the constants of R248 to R255. -/
theorem rounds48To55 : Obligations.Rounds48To55 := by
  refine ⟨fun s hf => ?_, selects_round 48, selects_round 49, selects_round 50, selects_round 51, selects_round 52,
      selects_round 53, selects_round 54, selects_round 55⟩
  and_intros <;> exact roundOp_eq_afterRound hf (by decide)

/-- Settles O33: seven rounds by the template with the constants of R256 to R262, and the last by its own with those of R263. -/
theorem rounds56To63 : Obligations.Rounds56To63 := by
  refine ⟨fun s hf => ?_, selects_round 56, selects_round 57, selects_round 58, selects_round 59, selects_round 60,
      selects_round 61, selects_round 62, selects_round 63⟩
  refine ⟨?_, ?_, ?_, ?_, ?_, ?_, ?_, lastRoundOp_eq_afterRound hf (by decide)⟩ <;>
    exact roundOp_eq_afterRound hf (by decide)

end Sys2Proof.Machine
end

section
/-! SUPPORT. The Digest Formatter (45_digest_formatter.md R150 to R153): the digest as the number `{D, C, B, A}`, its hexadecimal
characters, and how long the two ports hold them. -/

namespace Sys2Proof.Machine

/-- Settles O49: the four bytes of each register, register by register. -/
theorem digestByteOrder : Obligations.DigestByteOrder := by
  refine fun q => ⟨rfl, fun k hk => ?_⟩
  interval_cases k <;> exact ⟨rfl, rfl, rfl, rfl⟩

theorem packLE_cons (b : Byte) (bs : List Byte) : packLE (b :: bs) = b.toNat + 256 * packLE bs := rfl

theorem packLE_append (bs cs : List Byte) : packLE (bs ++ cs) = packLE bs + 2 ^ (8 * bs.length) * packLE cs := by
  induction bs with
  | nil => simp [packLE]
  | cons b bs ih =>
    rw [List.cons_append, packLE_cons, packLE_cons, ih, List.length_cons, Nat.mul_succ, Nat.pow_add]
    ring

/-- The four bytes of a register, packed again, are its value (R10). -/
theorem packLE_le32 (w : Word) : packLE (le32 w) = w.toNat := by
  have hw := w.isLt
  simp only [le32, packLE, List.foldr_cons, List.foldr_nil, BitVec.extractLsb'_toNat, Nat.shiftRight_eq_div_pow]
  omega

/-- The lanes of the digest are the registers, `A` lowest (R152). -/
theorem packLE_digest (q : Quad) : packLE (digest q) = (q.d ++ q.c ++ q.b ++ q.a).toNat := by
  simp only [digest, packLE_append, packLE_le32, List.length_append, toNat_append_eq_add]
  simp only [le32, List.length_cons, List.length_nil]
  omega

section
variable {s : State}

theorem digestPort_of_dv (hd : dv s = true) : digestPort s = BitVec.ofNat 128 (packLE (digest s.h)) := if_pos hd

theorem hexPort_of_dv (hd : dv s = true) : hexPort s = BitVec.ofNat 256 (packLE (hex (digest s.h))) := if_pos hd

theorem digestPort_eq_registers (hd : dv s = true) : digestPort s = s.h.d ++ s.h.c ++ s.h.b ++ s.h.a := by
  rw [digestPort_of_dv hd, packLE_digest]
  exact (BitVec.ofNat_toNat 128 _).trans (BitVec.setWidth_eq _)

end

/-- In DONE only `RESET` and `INIT` change the phase or a chaining register (R152, R83). -/
theorem done_held {s t : State} (hp : s.phase = .done) (hr : s.pins.rst = false) (hi : acceptedNow s ≠ some .init)
    (h : step s = .next t) : t.phase = .done ∧ t.h = s.h := by
  cases step_effect h with
  | idle | nop | dataProtocol | finalProtocol => exact ⟨hp, rfl⟩
  | reset hr' => simp [hr] at hr'
  | init ha => exact absurd ha hi
  | dataOverflow _ _ hp' | data _ _ hp' | final _ hp' | pad80 _ hp' | padz _ hp' | padsw _ hp' | padlen _ hp' | load _ hp'
  | round _ hp' | lastRound _ hp' | addbkAbsorb _ hp' | addbkPad _ hp' | addbkDone _ hp' => simp [hp] at hp'

/-- Settles O47: `DIGEST` is the packed digest, read as the four registers or lane by lane, and DONE is held. -/
theorem digestPortLanes : Obligations.DigestPortLanes := by
  refine ⟨fun s => ⟨fun hd => ⟨digestPort_eq_registers hd, fun n _ => ?_⟩, fun hd => if_neg (by simp [hd])⟩,
    fun s t hd hr hi h => ?_⟩
  · rw [digestPort_of_dv hd]
    exact extractLsb'_packLE (Nat.le_of_eq rfl) n
  · obtain ⟨hp, hh⟩ := done_held ((dv_iff s).mp hd) hr hi h
    have hd' := (dv_iff t).mpr hp
    exact ⟨hd', by rw [digestPort_of_dv hd', digestPort_of_dv hd, hh]⟩

/-- The two forms of the digit code: from `0` up to 9, and from `a` above (R151). -/
theorem toNat_hexDigit (v : BitVec 4) : (hexDigit v).toNat = Claims.hexCode v.toNat := by
  revert v
  decide

/-- The two digits of a byte, high nibble first (R151). -/
theorem getD_hex {bs : List Byte} {j : Nat} (hj : j < bs.length) :
    (hex bs).getD (2 * j) 0#8 = hexDigit ((bs.getD j 0#8).extractLsb' 4 4) ∧
      (hex bs).getD (2 * j + 1) 0#8 = hexDigit ((bs.getD j 0#8).extractLsb' 0 4) := by
  induction bs generalizing j with
  | nil => cases hj
  | cons b bs ih =>
    cases j with
    | zero => exact ⟨rfl, rfl⟩
    | succ j => exact ih (Nat.lt_of_succ_lt_succ hj)

/-- A lane of `HEX` is a character of the digest in hexadecimal (R153). -/
theorem extractLsb'_hexPort {s : State} (hd : dv s = true) (n : Nat) :
    (hexPort s).extractLsb' (8 * n) 8 = (hex (digest s.h)).getD n 0#8 := by
  rw [hexPort_of_dv hd]
  exact extractLsb'_packLE (Nat.le_of_eq rfl) n

/-- Settles O48: characters `2j` and `2j + 1` are the digits of the two nibbles of byte `j`. -/
theorem hexPortCharacters : Obligations.HexPortCharacters := by
  refine fun s => ⟨fun hd => ⟨rfl, fun j hj => ?_⟩, fun hd => if_neg (by simp [hd])⟩
  obtain ⟨hhigh, hlow⟩ := getD_hex (bs := digest s.h) hj
  have hb := ((digest s.h).getD j 0#8).isLt
  have e0 : 16 * j = 8 * (2 * j) := by omega
  have e1 : 16 * j + 8 = 8 * (2 * j + 1) := by omega
  rw [e1, e0, extractLsb'_hexPort hd, extractLsb'_hexPort hd, hhigh, hlow, toNat_hexDigit, toNat_hexDigit,
    BitVec.extractLsb'_toNat, BitVec.extractLsb'_toNat, Nat.shiftRight_eq_div_pow, Nat.shiftRight_zero]
  exact ⟨congrArg _ (by omega), rfl⟩

end Sys2Proof.Machine
end

section
/-! SUPPORT. The transaction of a host that does not wait (45_digest_formatter.md R157): the pins still to come and the steps still
to go are functions of the state, and every step takes one off each. -/

namespace Sys2Proof.Machine

/-- The canonical word of a command decodes to it (R72, R73). -/
theorem decodeCmd_commandWord {i : Instr} (hi : Claims.IsCommand i = true) : decodeCmd (commandWord i) = i := by
  cases i with
  | nop | init | final => rfl
  | data b =>
    have hw : commandWord (.data b) = 2#2 ++ b := by
      rw [commandWord, encode_data, BitVec.setWidth_append]
      rfl
    rw [hw, (decodeCmd_append b).2.2.1]
  | _ => cases hi

/-- A ready core accepts the command presented to it (R70). -/
theorem acceptedNow_command {s : State} {i : Instr} {l : List Pins} (hd : rdy s = true) (hi : Claims.IsCommand i = true)
    (hl : s.inputs = Pins.command (commandWord i) :: l) : acceptedNow s = some i := by
  have hp : s.pins = Pins.command (commandWord i) := by rw [State.pins, hl]; rfl
  rw [acceptedNow_of (by rw [hp]; rfl) hd (by rw [hp]; rfl), hp]
  exact congrArg some (decodeCmd_commandWord hi)

/-- One step for each byte, and a compression for each block they complete (R157). -/
theorem length_dataPins (k : Nat) (l : List Byte) :
    (dataPins k l).length = l.length + compressionSteps * ((k + l.length) / 64 - k / 64) := by
  induction l generalizing k with
  | nil => simp [dataPins]
  | cons b l ih =>
    simp only [dataPins, List.length_append, List.length_cons, ih, compressionSteps]
    split
    · rw [List.length_replicate]
      omega
    · rw [List.length_nil]
      omega

/-- The steps from `FINAL` to DONE: the mark, `z(n)` zeros, `PADSW`, eight length bytes, and the blocks they complete (R157). -/
def paddingSteps (n : Nat) : Nat := zeroCount n + 10 + 66 * (blockCount n - n / 64)

/-- The steps of a transaction: `INIT`, the message with its full blocks, `FINAL`, the padding. -/
theorem transactionSteps_eq (m : List Byte) :
    transactionSteps m.length = 1 + ((dataPins 0 m).length + 1 + paddingSteps m.length) := by
  rw [length_dataPins, transactionSteps, paddingSteps, blockCount, compressionSteps]
  omega

/-- After a message byte the core is busy only if the byte completes a block (R339). -/
theorem busySteps_pushed_none {s : State} (v : Byte) (hq : s.padst = .none) :
    busySteps (pushed v .absorb s) = if s.fill.toNat = 63 then compressionSteps else 0 := by
  split
  · next h63 =>
    rw [busySteps_load (by simp [succ_fill_eq_64_iff, h63]), pushed_padst, hq]
    rfl
  · next h63 => exact busySteps_ready (by simp [rdy, succ_fill_eq_64_iff, h63, Phase.ready])

/-- After `FINAL` the core is busy for the steps of the padding (R339). -/
theorem busySteps_final {s : State} {n : Nat} (hp : s.phase = .pad) (hq : s.padst = .p80) (hf : s.fill.toNat = n % 64) :
    busySteps s = paddingSteps n := by
  rw [busySteps_p80 hp hq, hf]
  simp only [zeroSteps, zeroBlockSteps, compressionSteps, paddingSteps, zeroCount, blockCount]
  split
  · omega
  · split <;> omega

/-- The pins the host of a transaction of `m` still presents: none after its `FINAL`, and before it quiet pins until the core is
ready, then the bytes from `LEN` on (R333). -/
def pinsToCome (m : List Byte) (s : State) : List Pins :=
  if s.padst = .none then
    List.replicate (busySteps s) Pins.quiet ++
      (dataPins s.len.toNat (m.drop s.len.toNat) ++ [Pins.command (commandWord .final)])
  else []

/-- The steps to DONE of a transaction of `m` whose host presents `pinsToCome`. -/
def stepsToGo (m : List Byte) (s : State) : Nat :=
  if s.padst = .none then (pinsToCome m s).length + paddingSteps m.length else busySteps s

section
variable {m : List Byte} {s t : State}

theorem pinsToCome_open (hq : s.padst = .none) :
    pinsToCome m s =
      List.replicate (busySteps s) Pins.quiet ++
        (dataPins s.len.toNat (m.drop s.len.toNat) ++ [Pins.command (commandWord .final)]) := if_pos hq

theorem pinsToCome_ready (hq : s.padst = .none) (hd : rdy s = true) :
    pinsToCome m s = dataPins s.len.toNat (m.drop s.len.toNat) ++ [Pins.command (commandWord .final)] := by
  rw [pinsToCome_open hq, busySteps_ready hd]
  rfl

theorem pinsToCome_closed (hq : s.padst ≠ .none) : pinsToCome m s = [] := if_neg hq

theorem stepsToGo_open (hq : s.padst = .none) : stepsToGo m s = (pinsToCome m s).length + paddingSteps m.length := if_pos hq

theorem stepsToGo_closed (hq : s.padst ≠ .none) : stepsToGo m s = busySteps s := if_neg hq

theorem toCome_eq_nil_iff : toCome m s = [] ↔ s.padst ≠ .none := by
  unfold toCome
  split <;> simp [*]

/-- The core is inside a transaction of `m` whose host presents `pinsToCome`. -/
structure OnCourse (m : List Byte) (s : State) : Prop where
  hashing : ∃ n, Hashing m n s
  pins : s.inputs = pinsToCome m s

/-- One step of the transaction: it is taken, and one fewer is to go. -/
def Advances (m : List Byte) (s : State) : Prop :=
  ∃ t, step s = .next t ∧ OnCourse m t ∧ stepsToGo m s = stepsToGo m t + 1

/-- A busy host presents nothing (R333). -/
theorem headD_pinsToCome_busy (hb : busySteps s ≠ 0) : (pinsToCome m s).headD Pins.quiet = Pins.quiet := by
  obtain ⟨k, hk⟩ := Nat.exists_eq_succ_of_ne_zero hb
  by_cases hq : s.padst = .none
  · rw [pinsToCome_open hq, hk]
    rfl
  · rw [pinsToCome_closed hq]
    rfl

/-- A step that takes a pin off the list before `FINAL`. -/
theorem advances_of_pin {p : Pins} {n : Nat} (h : OnCourse m s) (ht : step s = .next t) (hh : Hashing m n t)
    (hq : s.padst = .none) (hq' : t.padst = .none) (hs : pinsToCome m s = p :: pinsToCome m t) : Advances m s := by
  refine ⟨t, ht, ⟨⟨n, hh⟩, ?_⟩, ?_⟩
  · rw [step_inputs ht, h.pins, hs, List.tail_cons]
  · rw [stepsToGo_open hq, stepsToGo_open hq', hs, List.length_cons]
    omega

section
variable (h : OnCourse m s) (hm : m.length < 2 ^ 61)
include h hm

/-- A busy step passes under quiet pins (R333, R341). -/
theorem OnCourse.busy_step (hd : rdy s = false) : Advances m s := by
  obtain ⟨n, hh⟩ := h.hashing
  have hno := acceptedNow_busy hd
  have h0 : busySteps s ≠ 0 := fun e => by simp [hh.inv.rdy_of_busySteps e] at hd
  have hr : s.pins.rst = false := by rw [State.pins, h.pins, headD_pinsToCome_busy h0]; rfl
  obtain ⟨t, ht, -, hb⟩ := hh.inv.busy_step hd hr
  obtain ⟨t', n', ht', hh', hc⟩ := hh.step hm hr (r := toCome m s) (by rw [hno]; rfl)
  obtain rfl := Host.Outcome.next.inj (ht.symm.trans ht')
  have hl : t.len = s.len := by
    obtain hl | ⟨ha, -⟩ | ⟨-, ⟨b, ha⟩, -⟩ := lengthCountsBytesAndNeverWraps s t ht hr
    · exact hl
    · simp [hno] at ha
    · simp [hno] at ha
  have hiff : t.padst = .none ↔ s.padst = .none :=
    not_iff_not.mp (toCome_eq_nil_iff.symm.trans (by rw [hc, toCome_eq_nil_iff]))
  by_cases hq : s.padst = .none
  · have hq' := hiff.mpr hq
    refine advances_of_pin (p := Pins.quiet) h ht hh' hq hq' ?_
    rw [pinsToCome_open hq, pinsToCome_open hq', hb, hl]
    rfl
  · have hq' := mt hiff.mp hq
    refine ⟨t, ht, ⟨⟨n', hh'⟩, ?_⟩, ?_⟩
    · rw [step_inputs ht, h.pins, pinsToCome_closed hq, pinsToCome_closed hq', List.tail_nil]
    · rw [stepsToGo_closed hq, stepsToGo_closed hq', hb]

/-- A ready step before the end of the message accepts its next byte (R107). -/
theorem OnCourse.data_step (hp : s.phase = .absorb) (hq : s.padst = .none) (hlt : s.len.toNat < m.length) :
    Advances m s := by
  obtain ⟨n, hh⟩ := h.hashing
  have hd : rdy s = true := (rdy_iff s).mpr (.inr (.inl hp))
  have hdrop := List.drop_eq_getElem_cons hlt
  generalize m[s.len.toNat] = b at hdrop
  have hs := pinsToCome_ready (m := m) hq hd
  rw [hdrop, dataPins] at hs
  have ha : acceptedNow s = some (.data b) := acceptedNow_command hd rfl (h.pins.trans hs)
  have hl : s.len ≠ Config.maxLen := fun e => by
    rw [eq_maxLen_iff] at e
    omega
  obtain ⟨t, he, hq', hl', hb⟩ : ∃ t, StepEffect s s.tick t ∧ t.padst = .none ∧ t.len.toNat = s.len.toNat + 1 ∧
      busySteps t = if s.fill.toNat = 63 then compressionSteps else 0 :=
    ⟨_, .data b ha hp hl (hh.inv.fill_le (by rw [hp]; rfl)), hq, toNat_succ_of_ne_maxLen hl, busySteps_pushed_none b hq⟩
  obtain ⟨hh', -⟩ := hh.command_step hm he hd (acceptedNow_some ha).1 (by
    rw [ha, toCome, if_pos hq, hdrop]
    rfl)
  have hfull : (s.len.toNat + 1) % 64 = 0 ↔ s.fill.toNat = 63 := by
    rw [hh.inv.fillOfLength hp]
    omega
  refine advances_of_pin (p := Pins.command (commandWord (.data b))) h (he.step_eq fun _ => hh.inv.tick.not_stuck) hh' hq hq'
    (hs.trans ?_)
  rw [pinsToCome_open hq', hb, hl', List.cons_append, List.cons_append, List.append_assoc, if_congr hfull rfl rfl]
  split <;> rfl

/-- A ready step after the message accepts `FINAL`, the last pin (R108). -/
theorem OnCourse.final_step (hp : s.phase = .absorb) (hq : s.padst = .none) (hle : m.length ≤ s.len.toNat) :
    Advances m s := by
  obtain ⟨n, hh⟩ := h.hashing
  have hd : rdy s = true := (rdy_iff s).mpr (.inr (.inl hp))
  have hdrop := List.drop_eq_nil_of_le hle
  have hs := pinsToCome_ready (m := m) hq hd
  rw [hdrop, dataPins, List.nil_append] at hs
  have ha : acceptedNow s = some .final := acceptedNow_command hd rfl (h.pins.trans hs)
  obtain ⟨t, he, hp', hq', hf⟩ : ∃ t, StepEffect s s.tick t ∧ t.phase = .pad ∧ t.padst = .p80 ∧ t.fill = s.fill :=
    ⟨_, .final ha hp, rfl, rfl, rfl⟩
  obtain ⟨hh', -⟩ := hh.command_step hm he hd (acceptedNow_some ha).1 (by
    rw [ha, toCome, if_pos hq, hdrop]
    rfl)
  have ht := he.step_eq fun _ => hh.inv.tick.not_stuck
  have hfill : t.fill.toNat = m.length % 64 := by
    have hr := hh.reached
    rw [hq] at hr
    obtain ⟨hl, hj⟩ := hr
    rw [hf, hh.inv.fillOfLength hp]
    omega
  have hclosed : t.padst ≠ .none := by simp [hq']
  refine ⟨t, ht, ⟨⟨n, hh'⟩, ?_⟩, ?_⟩
  · rw [step_inputs ht, h.pins, hs, pinsToCome_closed hclosed, List.tail_cons]
  · rw [stepsToGo_open hq, stepsToGo_closed hclosed, hs, busySteps_final hp' hq' hfill, List.length_singleton, Nat.add_comm]

/-- A transaction is over, or it takes a step (R157). -/
theorem OnCourse.done_or_advances :
    s.phase = .done ∧ stepsToGo m s = 0 ∧ Claims.ShowsDigestOf m s ∨ s.phase ≠ .done ∧ Advances m s := by
  obtain ⟨n, hh⟩ := h.hashing
  cases hd : rdy s with
  | false => exact .inr ⟨fun hp => by simp [rdy, hp, Phase.ready] at hd, h.busy_step hm hd⟩
  | true =>
    obtain ⟨hp, hq⟩ | ⟨hp, hq⟩ := hh.ready_cases hd
    · refine .inr ⟨by simp [hp], ?_⟩
      obtain hlt | hle := Nat.lt_or_ge s.len.toNat m.length
      · exact h.data_step hm hp hq hlt
      · exact h.final_step hm hp hq hle
    · refine .inl ⟨hp, ?_, showsDigestOf hp (hh.inv.ovf_false (by simp [hp])) hh.perr (hh.chain_eq_of_done hm hp)⟩
      rw [stepsToGo_closed (by simp [hq]), busySteps_ready hd]

/-- The transaction ends in DONE when no step is left to go, and not before. -/
theorem OnCourse.run {k : Nat} (hk : stepsToGo m s = k) :
    (∃ t, Machine.run k s = .next t ∧ t.phase = .done ∧ Claims.ShowsDigestOf m t) ∧
      ∀ i, i < k → ∃ u, Machine.run i s = .next u ∧ u.phase ≠ .done := by
  induction k generalizing s with
  | zero =>
    obtain ⟨hp, -, hshow⟩ | ⟨-, t, -, -, hs⟩ := h.done_or_advances hm
    · exact ⟨⟨s, rfl, hp, hshow⟩, fun i hi => absurd hi (Nat.not_lt_zero i)⟩
    · omega
  | succ k ih =>
    obtain ⟨-, h0, -⟩ | ⟨hp, t, ht, h', hs⟩ := h.done_or_advances hm
    · omega
    · obtain ⟨hdone, hbefore⟩ := ih h' (by omega)
      rw [run_succ_next k ht]
      refine ⟨hdone, fun i hi => ?_⟩
      cases i with
      | zero => exact ⟨s, rfl, hp⟩
      | succ i =>
        rw [run_succ_next i ht]
        exact hbefore i (Nat.lt_of_succ_lt_succ hi)

end

/-- After `INIT` the transaction is on course: the rest of `transactionPins` is to come. -/
theorem onCourse_opened (hi : Inv s) (hin : s.inputs = dataPins 0 m ++ [Pins.command (commandWord .final)]) :
    OnCourse m (opened s) :=
  ⟨⟨0, hashing_opened hi m⟩, hin.trans (pinsToCome_ready (s := opened s) rfl rfl).symm⟩

theorem stepsToGo_opened (m : List Byte) (s : State) : 1 + stepsToGo m (opened s) = transactionSteps m.length := by
  rw [stepsToGo_open (s := opened s) rfl, pinsToCome_ready (s := opened s) rfl rfl, List.length_append, List.length_singleton,
    transactionSteps_eq]
  rfl

end

/-- Settles O57: after the step of `INIT` the transaction is on course, and every further step is one of those to go. -/
theorem transactionTakesTheStatedSteps : Obligations.TransactionTakesTheStatedSteps := by
  intro s m h hd hm hin
  have ht := h.step_init (acceptedNow_command hd rfl hin)
  have hc : OnCourse m (opened s.tick) := onCourse_opened h.tick (by rw [tick_inputs, hin]; rfl)
  obtain ⟨hdone, hbefore⟩ := hc.run hm rfl
  rw [← stepsToGo_opened m s.tick, Nat.add_comm, run_succ_next _ ht]
  refine ⟨hdone, fun k h1 hk => ?_⟩
  obtain ⟨k, rfl⟩ := Nat.exists_eq_add_of_le' h1
  rw [run_succ_next k ht]
  exact hbefore k (Nat.lt_of_succ_lt_succ hk)

end Sys2Proof.Machine
end

section
/-! SUPPORT. The two exceptions as they are taken (60_exceptions.md R301, R302): the operation that raises each, and the ports in
the phases without a digest. -/

namespace Sys2Proof.Machine

/-- The length test of `DATA` at the limit: the byte is dropped (R107, R301). -/
theorem exec_data_overflow {s : State} (b : Byte) (hp : s.phase = .absorb) (hl : s.len = Config.maxLen) :
    exec (.data b) s = .next (raise .overflow s) :=
  (if_neg (not_not.mpr hp)).trans (if_pos hl)

/-- The phase test of `DATA` comes first (R107, R305). -/
theorem exec_data_protocol {s : State} (b : Byte) (hp : s.phase ≠ .absorb) :
    exec (.data b) s = .next (raise .protocol s) := if_pos hp

/-- The phase test of `FINAL` (R108). -/
theorem exec_final_protocol {s : State} (hp : s.phase ≠ .absorb) : exec .final s = .next (raise .protocol s) := if_pos hp

/-- Both ports are gated by `DV` (R152, R153). -/
theorem no_digest_of_not_done {s : State} (hp : s.phase ≠ .done) : dv s = false ∧ digestPort s = 0#128 ∧ hexPort s = 0#256 := by
  have hd : ¬ dv s = true := mt (dv_iff s).mp hp
  exact ⟨Bool.eq_false_iff.mpr hd, if_neg hd, if_neg hd⟩

/-- The two values of `STATUS` after an overflow (R301). -/
theorem status_overflow {s : State} (ho : s.ovf = true) (hp : s.phase = .error) :
    status s = if s.perr = true then 0x7D#8 else 0x75#8 := by
  rw [status_of ho rfl hp]
  cases s.perr <;> rfl

/-- The sequencer leaves ERROR by `INIT` or `RESET` only (R301, R307). -/
theorem error_held {s t : State} (hp : s.phase = .error) (hr : s.pins.rst = false) (hi : acceptedNow s ≠ some .init)
    (h : step s = .next t) : t.phase = .error := by
  have hd : rdy s = true := (rdy_iff s).mpr (.inr (.inr (.inr hp)))
  have hs : (t.phase, t.padst, t.rnd) = (s.phase, s.padst, s.rnd) :=
    ((step_effect h).sequencer hr).trans (nextSequencer_stays hd hi fun ha => by simp [hp] at ha)
  exact (congrArg Prod.fst hs).trans hp

/-- Settles O17: the length test of `DATA`; in ERROR the ports are gated, and ERROR is held. -/
theorem overflowIsTaken : Obligations.OverflowIsTaken := by
  refine ⟨fun b s hp hl => ⟨exec_data_overflow b hp (eq_maxLen_iff.mpr hl), status_overflow rfl rfl,
    no_digest_of_not_done Phase.noConfusion⟩, fun s t hp hr hi h => ?_⟩
  have ht : t.phase = .error := error_held hp hr hi h
  exact ⟨ht, no_digest_of_not_done (by simp [ht])⟩

/-- Settles O18: the phase tests of `DATA` and `FINAL`; no output but `STATUS` reads `PERR`. -/
theorem protocolIsTaken : Obligations.ProtocolIsTaken := by
  intro b s hs
  have hp : s.phase ≠ .absorb := by
    obtain hp | hp | hp := hs <;> simp [hp]
  exact ⟨exec_data_protocol b hp, exec_final_protocol hp, rfl, rfl, rfl⟩

end Sys2Proof.Machine
end

section
/-! SUPPORT. `RESET` from every state, and the wait of a busy core with its counts after a command (70_reset_and_hazards.md R330,
R339, R341). -/

namespace Sys2Proof.Machine

/-- Settles O6: the step is `resetCore`, whose phase shows no digest. -/
theorem resetFromAnyState : Obligations.ResetFromAnyState := by
  intro s hr
  have hp : (resetCore s.tick).phase ≠ .done := Phase.noConfusion
  obtain ⟨hv, hdigest, hhex⟩ := no_digest_of_not_done hp
  have hstatus : status (resetCore s.tick) = 0x01#8 := statusRegisterFields.2
  exact ⟨_, step_reset hr, rfl, rfl, Memory.read_nil, rfl, rfl, rfl, rfl, rfl, rfl, rfl, rfl, hv, hstatus, hdigest, hhex,
    acceptedNow_reset hr⟩

/-- Settles O9: the reset, or one of the effects a state of the invariant has without it. -/
theorem invariantStatesHaveAStep : Obligations.InvariantStatesHaveAStep := by
  intro s h
  cases hr : s.pins.rst with
  | true => exact ⟨_, step_reset hr⟩
  | false =>
    obtain ⟨t, ht, -⟩ := h.exists_effect hr
    exact ⟨t, ht⟩

/-- The padding of a message that ends in its first block: within the block up to 55 bytes, through a second one above (R339). -/
theorem paddingSteps_of_le {f : Nat} (hf : f ≤ 63) :
    paddingSteps f = if f ≤ 55 then (55 - f) + 10 + 66 else (119 - f) + 10 + 132 := by
  unfold paddingSteps zeroCount blockCount
  split <;> omega

/-- `FINAL` in an open message, and the steps to go after it (R108, R339). -/
theorem Inv.exec_final_busySteps {s : State} (h : Inv s) (hp : s.phase = .absorb) :
    ∃ t, exec .final s = .next t ∧
      busySteps t = if s.fill.toNat ≤ 55 then (55 - s.fill.toNat) + 10 + 66 else (119 - s.fill.toNat) + 10 + 132 := by
  have hf : s.fill.toNat ≤ 63 := h.fill_le (by rw [hp]; rfl)
  have hmod : s.fill.toNat = s.fill.toNat % 64 := by omega
  exact ⟨{ s with padst := .p80, phase := .pad }, if_neg (not_not.mpr hp),
    (busySteps_final (s := { s with padst := .p80, phase := .pad }) rfl rfl hmod).trans (paddingSteps_of_le hf)⟩

/-- `DATA` in an open message below the limit, and the steps to go after it (R107, R339). -/
theorem Inv.exec_data_busySteps {s : State} (h : Inv s) (hp : s.phase = .absorb) (hl : s.len ≠ Config.maxLen) (b : Byte) :
    ∃ t, exec (.data b) s = .next t ∧ busySteps t = if s.fill.toNat = 63 then compressionSteps else 0 := by
  have hf : s.fill.toNat ≤ 63 := h.fill_le (by rw [hp]; rfl)
  exact ⟨_, (execData_eq_push b hp hl).trans (push_eq hf), busySteps_pushed_none b (h.noPadding (.inr (.inl hp)))⟩

/-- Settles O52: a busy step brings the count down by one, so it is 0 in the ready states only. -/
theorem busyStepsCountDown : Obligations.BusyStepsCountDown := by
  refine fun s h => ⟨fun hr hd => ?_, ⟨h.rdy_of_busySteps, busySteps_ready⟩, h.busySteps_le, h.exec_final_busySteps,
    fun hp hl => h.exec_data_busySteps hp (mt eq_maxLen_iff.mp hl)⟩
  obtain ⟨t, ht, -, hb⟩ := h.busy_step hd hr
  exact ⟨t, ht, hb⟩

/-- Settles O53: the busy steps of `Inv.run_busySteps`, within the bound. -/
theorem coreBecomesReady : Obligations.CoreBecomesReady := fun _ h hn => ⟨h.busySteps_le, h.run_busySteps hn⟩

end Sys2Proof.Machine
end

section
/-! SUPPORT. The invariant at reset and over one step, and the way into and out of IDLE (10_state.md section 11, R40), by the cases
of `StepEffect`. -/

namespace Sys2Proof.Machine

/-- Settles O8: every case of a step keeps the invariant. -/
theorem stepKeepsInvariant : Obligations.StepKeepsInvariant := fun _ _ h ht => h.effect (step_effect ht)

/-- Settles O7: `State.reset` is the result of a `RESET` in itself, and its own reset state. -/
theorem resetMeetsInvariant : Obligations.ResetMeetsInvariant := ⟨inv_resetCore State.reset, fun _ => rfl⟩

/-- A byte is pushed into an open message or into the padding, and neither is IDLE (R104). -/
theorem pushed_phase_ne_idle (v : Byte) {p : Phase} (hp : p ≠ .idle) (s : State) : (pushed v p s).phase ≠ .idle := by
  rw [pushed_phase]
  split
  · exact Phase.noConfusion
  · exact hp

/-- A step ends in IDLE by a `RESET`, or from IDLE with nothing changed but `PERR` and the pins (R83). -/
theorem StepEffect.to_idle {s t : State} (he : StepEffect s s.tick t) (ht : t.phase = .idle) :
    t = resetCore s.tick ∨ s.phase = .idle ∧ t = { s with perr := t.perr, inputs := t.inputs } := by
  cases he with
  | reset => exact .inl rfl
  | idle | nop | dataProtocol | finalProtocol => exact .inr ⟨ht, rfl⟩
  | data | pad80 | padz | padlen => exact absurd ht (pushed_phase_ne_idle _ (by decide) _)
  | padsw _ hp | round _ hp => cases hp.symm.trans ht
  | _ => cases ht

/-- In IDLE no micro-operation is selected, and of the commands only `INIT` writes `PHASE` (R83). -/
theorem StepEffect.from_idle {s t : State} (he : StepEffect s s.tick t) (hs : s.phase = .idle) (ht : t.phase ≠ .idle) :
    acceptedNow s = some .init := by
  cases he with
  | init ha => exact ha
  | reset => exact absurd rfl ht
  | idle | nop | dataProtocol | finalProtocol => exact absurd hs ht
  | dataOverflow b ha hp | data b ha hp | final ha hp => cases hs.symm.trans hp
  | pad80 _ hp | padz _ hp | padsw _ hp | padlen _ hp | load _ hp | round _ hp | lastRound _ hp | addbkAbsorb _ hp
  | addbkPad _ hp | addbkDone _ hp => cases hs.symm.trans hp

/-- Settles O10: IDLE is entered by `RESET` or kept, but for `PERR`, and left by `INIT`. -/
theorem idleOnlyAfterReset : Obligations.IdleOnlyAfterReset := by
  intro s t h hst
  have he := step_effect hst
  refine ⟨fun ht => ?_, he.from_idle⟩
  obtain rfl | ⟨hs, e⟩ := he.to_idle ht
  · rfl
  · rw [h hs] at e
    exact e

end Sys2Proof.Machine
end

section
/-! SUPPORT. Words written out by hand (30_encoding.md sections 2 and 3, 95_test_vectors.md section 8), each by the rule of its
format: a command by its `op`, a selector by its row of R75. -/

namespace Sys2Proof.Machine

/-- Settles O2: every word is of the format of its operation; the bits outside the mask are ignored. -/
theorem handEncodedWordsDecode : Obligations.HandEncodedWordsDecode := by
  refine ⟨decode_command 0x000#10, decode_command 0x05A#10, decode_command 0x100#10, decode_command 0x261#10,
    decode_command 0x2FF#10, decode_command 0x300#10, decode_command 0x3FF#10,
    selects_row .pad80 rfl _ rfl, selects_row .pad80 rfl _ rfl, selects_row .padz rfl _ rfl, selects_row .padsw rfl _ rfl,
    selects_row .padlen rfl _ rfl, selects_row .load rfl _ rfl, selects_row .rnd00 rfl _ rfl, selects_row .rnd42 rfl _ rfl,
    selects_row .rnd63 rfl _ rfl, selects_row .addbk rfl _ rfl, ?_, ?_⟩
  · obtain ⟨-, hpad, -⟩ := selectorsDecodeByTheirRow 0x400#12
    exact hpad.mpr rfl
  · obtain ⟨-, -, hready⟩ := selectorsDecodeByTheirRow 0xC00#12
    exact hready.mpr (.inr (.inr (.inl rfl)))

end Sys2Proof.Machine
end
